-- ==== Sys2Proof/Config.lean ====
section
/-! DEFINITION. The implementation parameters of 00_scope.md R8, each a named constant (the source's literals are
unaudited: 93_implementation_defined.md I1, log 10), and the one platform parameter the spec leaves free. -/

namespace Sys2Proof.Config

/-- LEN_W, width of a raw length and of every window slot (R8, D5). -/
abbrev lenW : Nat := 16
/-- LEAD_N, leading window width (R8). -/
abbrev leadN : Nat := 4
/-- HDR_N, magic and prefix window width (R8). -/
abbrev hdrN : Nat := 4
/-- SEQ_N, sequence window width (R8). -/
abbrev seqN : Nat := 6
/-- DATA_MAX, data bytes per fragment (R8). -/
abbrev dataMax : Nat := 4
/-- POLY, the CRC reduction constant (R8). -/
abbrev poly : BitVec 8 := 0x8C#8
/-- CRC_INIT, the CRC start value (R8, D18). -/
abbrev crcInit : BitVec 8 := 0x00#8
/-- HDR_MASK (R8). -/
abbrev hdrMask : BitVec 16 := 0x01F0#16
/-- MAGIC_BANDS, in slot order (R8). -/
abbrev magicBands : Vector (BitVec 16) hdrN := #v[0x000#16, 0x010#16, 0x020#16, 0x030#16]
/-- PREFIX_BANDS, in slot order (R8). -/
abbrev prefixBands : Vector (BitVec 16) hdrN := #v[0x040#16, 0x050#16, 0x060#16, 0x070#16]
/-- SEQ_HDR_MASK (R8). -/
abbrev seqHdrMask : BitVec 16 := 0x0180#16
/-- SEQ_HDR_MARK (R8). -/
abbrev seqHdrMark : BitVec 16 := 0x0080#16
/-- SEQ_DATA_MASK (R8). -/
abbrev seqDataMask : BitVec 16 := 0x0100#16
/-- SEQ_DATA_MARK (R8). -/
abbrev seqDataMark : BitVec 16 := 0x0100#16
/-- FIELD7_MASK (R8). -/
abbrev field7Mask : BitVec 16 := 0x007F#16
/-- QUIRK_IN, the slot-0 nibble that is substituted (R8). -/
abbrev quirkIn : BitVec 4 := 0x8#4
/-- QUIRK_OUT, what it is substituted by (R8). -/
abbrev quirkOut : BitVec 4 := 0xF#4
/-- MAX_TOTAL_LEN (R8). -/
abbrev maxTotalLen : Nat := 255
/-- BITMAP_BITS (R8, D25). -/
abbrev bitmapBits : Nat := 64
/-- PAYLOAD_BYTES (R8, D26). -/
abbrev payloadBytes : Nat := 256
/-- CMD_W, command word width (R8, D2). -/
abbrev cmdW : Nat := 32
/-- RDATA_W, read data width (R8, D20). -/
abbrev rdataW : Nat := 16

/-- HOST_PORT_BASE (20_memory.md R68, D1): where the platform places the command port. No rule reads it, so it has no
value here. -/
opaque hostPortBase : Nat

end Sys2Proof.Config
end

