-- ==== Sys2Proof/Word.lean ====
section
/-! DEFINITION. The word types of the block (00_scope.md R8, R9). Every value is unsigned (R9, D6). The widths are written
as numerals, so that bit-vector lemmas apply; Sys2Proof/Laws/Config.lean ties them to the constants of Config. -/

namespace Sys2Proof

/-- A payload byte, a CRC value, a header value: 8 bits. -/
abbrev Byte := BitVec 8
/-- A raw or delta-adjusted length, a window slot: LEN_W bits (R8). -/
abbrev Len := BitVec 16
/-- A command word: CMD_W bits (R80). -/
abbrev CmdWord := BitVec 32
/-- A status address (R42). -/
abbrev StatusAddr := BitVec 16
/-- A value READ returns: RDATA_W bits (R38). -/
abbrev ReadData := BitVec 16

end Sys2Proof
end

