-- ==== Sys2Proof/Syntax.lean ====
section
/-! DEFINITION. Command set v1 (30_encoding.md R82, R83): one constructor per row of spec/opcode_table.json. -/

namespace Sys2Proof

/-- The five commands. An operand's type is its field's width, so no operand can be out of range (R83). -/
inductive Instr where
  /-- OBSERVE len: hand one observed frame length to the active unit (R201). -/
  | observe (len : Len)
  /-- RESET: start a new provisioning attempt (R203). -/
  | reset
  /-- CRCCLR: start a new stand-alone CRC (R103). -/
  | crcclr
  /-- CRCBYTE b: feed one byte to the stand-alone CRC (R104). -/
  | crcbyte (b : Byte)
  /-- READ addr: read one status location (R204). -/
  | read (addr : StatusAddr)
  deriving DecidableEq, Repr

end Sys2Proof
end

