-- ==== Sys2Proof/WellFormed.lean ====
section
/-! DEFINITION. What a well-formed command is, and what a well-formed assembly line is (30_encoding.md R83, R87, R88).
A command's operands are bit vectors of their fields' widths, so every Instr is well formed; the checks an assembler
makes are on its own numbers, which have no width. -/

namespace Sys2Proof

/-- Every operand lies in the range R83 gives its field. The operand types already hold it to that range. -/
def Instr.wellFormed : Instr → Bool
  | .observe len => decide (len.toNat ≤ 65535)
  | .reset => true
  | .crcclr => true
  | .crcbyte b => decide (b.toNat ≤ 255)
  | .read addr => decide (addr.toNat ≤ 65535)

/-- One line of command set v1's assembly: the five commands (R87) and the four pseudo-instructions (R88), with the
numbers as the programmer wrote them. -/
inductive AsmLine where
  | observe (len : Nat)
  | reset
  | crcclr
  | crcbyte (b : Nat)
  | read (addr : Nat)
  /-- lead d -/
  | leadCode (d : Nat)
  /-- magic v, c, d -/
  | magicCode (v c d : Nat)
  /-- prefix v, c, d -/
  | prefixCode (v c d : Nat)
  /-- frag i, b0 [, b1 [, b2 [, b3]]], d -/
  | frag (i : Nat) (bytes : List Nat) (d : Nat)
  deriving DecidableEq, Repr

/-- What an assembler accepts: len and addr in 0..65535 and b in 0..255 (R87); lead's d in 0..65531, frag's i in
0..127 with one to four bytes (R88). DEDUCED (log 13): the v and c of magic and prefix and the bytes of frag are
bytes; a d with no range of its own is any number, since each sum is taken mod 2^16. -/
def AsmLine.wellFormed : AsmLine → Bool
  | .observe len => decide (len ≤ 65535)
  | .reset => true
  | .crcclr => true
  | .crcbyte b => decide (b ≤ 255)
  | .read addr => decide (addr ≤ 65535)
  | .leadCode d => decide (d ≤ 65531)
  | .magicCode v c _ => decide (v ≤ 255) && decide (c ≤ 255)
  | .prefixCode v c _ => decide (v ≤ 255) && decide (c ≤ 255)
  | .frag i bytes _ =>
    decide (i ≤ 127) && decide (1 ≤ bytes.length) && decide (bytes.length ≤ 4) && bytes.all fun b => decide (b ≤ 255)

end Sys2Proof
end

