-- ==== Sys2Proof/Decode.lean ====
section
/-! DEFINITION. The decoder of 30_encoding.md R80 to R86 and the encoder written from the same table (R82). -/

namespace Sys2Proof

/-- Why a word is illegal: the four cases of R84. -/
inductive DecodeError where
  /-- R84 case 1: OP is 0x0 or in 0x6..0xF. -/
  | opcode
  /-- R84 case 2: RSVD is not zero. -/
  | reserved
  /-- R84 case 3: RESET or CRCCLR with ARG not zero. -/
  | operand
  /-- R84 case 4: CRCBYTE with ARG[15:8] not zero. -/
  | byteHigh
  deriving DecidableEq, Repr

/-- OP, bits [31:28] (R80). -/
def opField (w : CmdWord) : BitVec 4 := w.extractLsb' 28 4

/-- RSVD, bits [27:16] (R80). -/
def rsvdField (w : CmdWord) : BitVec 12 := w.extractLsb' 16 12

/-- ARG, bits [15:0] (R80). -/
def argField (w : CmdWord) : BitVec 16 := w.extractLsb' 0 16

/-- The operand of CRCBYTE, ARG[7:0] (R83). -/
def byteField (w : CmdWord) : Byte := w.extractLsb' 0 8

/-- The bits of CRCBYTE that must be zero, ARG[15:8] (R84 case 4). -/
def byteHighField (w : CmdWord) : Byte := w.extractLsb' 8 8

/-- The decoder: every word is one of the five commands or illegal by R84, in every phase (R85, R86). -/
def decode (w : CmdWord) : Except DecodeError Instr :=
  if rsvdField w ≠ 0 then .error .reserved
  else if opField w = 0x1#4 then .ok (.observe (argField w))
  else if opField w = 0x2#4 then
    if argField w = 0 then .ok .reset else .error .operand
  else if opField w = 0x3#4 then
    if argField w = 0 then .ok .crcclr else .error .operand
  else if opField w = 0x4#4 then
    if byteHighField w = 0 then .ok (.crcbyte (byteField w)) else .error .byteHigh
  else if opField w = 0x5#4 then .ok (.read (argField w))
  else .error .opcode

/-- The word of R80's one format with operation code op and operand arg, RSVD zero. -/
def commandWord (op : BitVec 4) (arg : BitVec 16) : CmdWord := op ++ 0#12 ++ arg

/-- The encoder, from the operation codes of R82. -/
def encode : Instr → CmdWord
  | .observe len => commandWord 0x1#4 len
  | .reset => commandWord 0x2#4 0
  | .crcclr => commandWord 0x3#4 0
  | .crcbyte b => commandWord 0x4#4 (b.setWidth 16)
  | .read addr => commandWord 0x5#4 addr

/-- A row of R82's second table: the bits under mask equal match. -/
structure OpcodeRow where
  pattern : CmdWord
  mask : CmdWord
  deriving DecidableEq, Repr

/-- The word carries the row's fixed bits. -/
def OpcodeRow.fits (r : OpcodeRow) (w : CmdWord) : Bool := w &&& r.mask == r.pattern

/-- R82's match and mask of each command. -/
def opcodeRow : Instr → OpcodeRow
  | .observe _ => ⟨0x10000000#32, 0xFFFF0000#32⟩
  | .reset => ⟨0x20000000#32, 0xFFFFFFFF#32⟩
  | .crcclr => ⟨0x30000000#32, 0xFFFFFFFF#32⟩
  | .crcbyte _ => ⟨0x40000000#32, 0xFFFFFF00#32⟩
  | .read _ => ⟨0x50000000#32, 0xFFFF0000#32⟩

/-- The command word whose bits spec/opcode_table.json numbers as w: one 32-bit word, presented whole (R80), bit 0 its
least significant. Bits at or above nbits are 0. None where those bits do not fit one command word. -/
def tableWord (nbits w : Nat) : Option CmdWord :=
  if w % 2 ^ nbits < 2 ^ Config.cmdW then some (BitVec.ofNat Config.cmdW (w % 2 ^ nbits)) else none

/-- What the decoder reads from an opcode-table word; none where the word is illegal. -/
def decodeTableWord (nbits w : Nat) : Option Instr :=
  match tableWord nbits w with
  | none => none
  | some word => (decode word).toOption

end Sys2Proof
end

