-- ==== Sys2Proof/Machine/State.lean ====
section
/-! DEFINITION. The block's state (10_state.md), plain data, and its value at reset (70_reset_and_hazards.md R400). -/

namespace Sys2Proof.Machine

/-- The provisioning phase, ST (R21). The codes 5 to 7, which no rule writes, are not representable (93 I11, log 4). -/
inductive Phase where
  | lead
  | magic
  | prefixCode
  | sequence
  | done
  deriving DecidableEq, Repr

/-- The outcome of the most recent OBSERVE, EVT (R35). The codes 10 to 15 are not representable (93 I12, log 4). -/
inductive Evt where
  /-- NONE, written by RESET. -/
  | none
  /-- FILL: the window is not yet full after the push. -/
  | fill
  /-- NOMATCH: the full window fails the band or step predicate. -/
  | noMatch
  /-- ADVANCE: ST moved from LEAD, MAGIC or PREFIX to the next phase. -/
  | advance
  /-- CRCFAIL: the bands pass and the fragment CRC fails. -/
  | crcFail
  /-- BADINDEX: the CRC passes and the index is SEQ_Q or more. -/
  | badIndex
  /-- DUP: the fragment's bitmap bit is already 0. -/
  | dup
  /-- ACCEPT: a fragment was written and BITMAP is not zero. -/
  | accept
  /-- COMPLETE: the last missing fragment was written. -/
  | complete
  /-- IGNORED: the OBSERVE came while ST = DONE. -/
  | ignored
  deriving DecidableEq, Repr

/-- The credential of R182: what a completing OBSERVE hands to the host (R39). -/
structure Credential where
  password : List Byte
  nonce : Byte
  ssid : List Byte
  deriving DecidableEq, Repr

/-- The payload buffer PAYLOAD (R32, R60): the bytes that differ from `unlistedByte`, addresses strictly rising. -/
abbrev Memory := List Host.Cell

/-- What a payload byte that the list does not name reads as: the reset value of every byte (R32). -/
abbrev unlistedByte : Byte := 0

/-- Why the machine stops. The block raises no exception (R300), and no command of the model faults in any state. -/
inductive Fault where
  /-- Raised by memRead and memWrite for an address outside 0..255, which R61 requires them never to be given. Safe:
  the model stops where the spec defines nothing. -/
  | payloadAddress (a : Nat)
  deriving DecidableEq, Repr

/-- Why an instruction has no meaning. -/
inductive Refusal where
  /-- Raised by exec's arm of an instruction that has no meaning yet; no arm of this model raises it. Safe: a step that
  is refused proves nothing. -/
  | notModelled (mnemonic : String)
  deriving DecidableEq, Repr

/-- Every state element of 10_state.md, and two fields of the model's own at the end. -/
structure State where
  /-- ST (R21). -/
  st : Phase
  /-- LEAD[0..3], LEAD[0] the oldest (R23). -/
  lead : Vector Len Config.leadN
  /-- LEAD_CNT (R23). -/
  leadCnt : BitVec 3
  /-- LEAD_VALID (R24). -/
  leadValid : Bool
  /-- DELTA (R25). -/
  delta : Len
  /-- MAG[0..3] (R26). -/
  mag : Vector Len Config.hdrN
  /-- MAG_CNT (R26). -/
  magCnt : BitVec 3
  /-- PFX[0..3] (R27). -/
  pfx : Vector Len Config.hdrN
  /-- PFX_CNT (R27). -/
  pfxCnt : BitVec 3
  /-- TOTAL_LEN (R28). -/
  totalLen : Byte
  /-- TOTAL_CRC (R28). -/
  totalCrc : Byte
  /-- PW_LEN (R28). -/
  pwLen : Byte
  /-- PW_CRC (R28). -/
  pwCrc : Byte
  /-- SEQ_Q (R29). -/
  seqQ : BitVec 7
  /-- SEQ_R (R29). -/
  seqR : BitVec 2
  /-- SEQW[0..5] (R30). -/
  seqw : Vector Len Config.seqN
  /-- SEQ_CNT (R30). -/
  seqCnt : BitVec 3
  /-- BITMAP (R31). -/
  bitmap : BitVec 64
  /-- PAYLOAD[0..255] (R32). -/
  payload : Memory
  /-- DONE (R33). -/
  done : Bool
  /-- EVT (R35). -/
  evt : Evt
  /-- ILLEGAL (R36). -/
  illegal : Bool
  /-- CRC_ACC (R37). -/
  crcAcc : Byte
  /-- RDATA (R38). -/
  rdata : ReadData
  /-- The step output (cred_valid, cred) of the last step (R39); none where cred_valid is 0 (log 3). -/
  out : Option Credential
  /-- The commands the host has presented and the block has not yet performed, the next one first (R12, log 1). -/
  input : List CmdWord
  deriving DecidableEq, Repr

/-- The state after power-on and after RESET (R400). -/
def State.reset : State where
  st := .lead
  lead := #v[0, 0, 0, 0]
  leadCnt := 0
  leadValid := false
  delta := 0
  mag := #v[0, 0, 0, 0]
  magCnt := 0
  pfx := #v[0, 0, 0, 0]
  pfxCnt := 0
  totalLen := 0
  totalCrc := 0
  pwLen := 0
  pwCrc := 0
  seqQ := 0
  seqR := 0
  seqw := #v[0, 0, 0, 0, 0, 0]
  seqCnt := 0
  bitmap := 0
  payload := []
  done := false
  evt := .none
  illegal := false
  crcAcc := 0x00
  rdata := 0
  out := none
  input := []

end Sys2Proof.Machine
end

