-- ==== Sys2Proof/Machine/Ops.lean ====
section
/-! DEFINITION. The named operations over the payload memory, the windows, the registers and the command port. The block
takes no exception and returns from none (60_exceptions.md R300, R305), so there is no such operation here. -/

namespace Sys2Proof.Machine

/-! ### The payload memory (20_memory.md R60, R61) -/

/-- The byte at address a: the listed one, or `unlistedByte`. -/
def Memory.peek : Memory → Nat → Byte
  | [], _ => unlistedByte
  | (k, u) :: rest, a => if k = a then u else Memory.peek rest a

/-- The memory with v at address a, in canonical form: writing `unlistedByte` removes the entry. -/
def Memory.poke : Memory → Nat → Byte → Memory
  | [], a, v => if v = unlistedByte then [] else [(a, v)]
  | (k, u) :: rest, a, v =>
    if a < k then
      if v = unlistedByte then (k, u) :: rest else (a, v) :: (k, u) :: rest
    else if a = k then
      if v = unlistedByte then rest else (a, v) :: rest
    else (k, u) :: Memory.poke rest a v

/-- From address lo on: addresses strictly rising and inside the buffer, no entry equal to `unlistedByte`. -/
def Memory.wfFrom : Nat → Memory → Bool
  | _, [] => true
  | lo, (k, u) :: rest =>
    decide (lo ≤ k) && decide (k < Config.payloadBytes) && decide (u ≠ unlistedByte) && Memory.wfFrom (k + 1) rest

/-- The canonical form of the payload memory. -/
def Memory.wf (m : Memory) : Bool := Memory.wfFrom 0 m

/-- MemRead(a, 1), which requires 0 <= a <= 255 (R61). -/
def memRead (m : Memory) (a : Nat) : Except Fault Byte :=
  if a < Config.payloadBytes then .ok (m.peek a) else .error (.payloadAddress a)

/-- MemWrite(a, 1, v), which requires 0 <= a <= 255 (R61). -/
def memWrite (m : Memory) (a : Nat) (v : Byte) : Except Fault Memory :=
  if a < Config.payloadBytes then .ok (m.poke a v) else .error (.payloadAddress a)

/-- The n bytes at a, a + 1, ..., in ascending address order (R62). -/
def memReadBytes (m : Memory) (a : Nat) : Nat → Except Fault (List Byte)
  | 0 => .ok []
  | n + 1 =>
    match memRead m a with
    | .error f => .error f
    | .ok v =>
      match memReadBytes m (a + 1) n with
      | .error f => .error f
      | .ok vs => .ok (v :: vs)

/-- The bytes written at a, a + 1, ..., in ascending address order (R62, R179). -/
def memWriteBytes (m : Memory) (a : Nat) : List Byte → Except Fault Memory
  | [] => .ok m
  | v :: vs =>
    match memWrite m a v with
    | .error f => .error f
    | .ok m' => memWriteBytes m' (a + 1) vs

/-! ### The window shift primitive (41_leading_code.md R120) -/

/-- What Push leaves: the window, its counter, and whether the window is full. -/
structure Pushed (n : Nat) where
  window : Vector Len n
  count : BitVec 3
  full : Bool
  deriving DecidableEq, Repr

/-- Every slot takes the next one's value and the last slot takes v. -/
def shiftIn {n : Nat} (w : Vector Len n) (v : Len) : Vector Len n :=
  Vector.ofFn fun i => if h : i.val + 1 < n then w[i.val + 1] else v

/-- Push(W, CNT, v) on a window of width n (R120). -/
def push {n : Nat} (w : Vector Len n) (cnt : BitVec 3) (v : Len) : Pushed n :=
  if h : cnt.toNat < n then ⟨w.set cnt.toNat v h, cnt + 1, decide ((cnt + 1).toNat = n)⟩
  else ⟨shiftIn w v, cnt, decide (cnt.toNat = n)⟩

/-! ### Named updates of the state -/

/-- EVT <- e. -/
def State.withEvt (s : State) (e : Evt) : State := { s with evt := e }

/-- The command's step output (R39). -/
def State.withOut (s : State) (o : Option Credential) : State := { s with out := o }

/-- The commands not yet performed. -/
def State.withInput (s : State) (ws : List CmdWord) : State := { s with input := ws }

/-- LEAD and LEAD_CNT as a push left them. -/
def State.withLead (s : State) (p : Pushed Config.leadN) : State := { s with lead := p.window, leadCnt := p.count }

/-- MAG and MAG_CNT as a push left them. -/
def State.withMag (s : State) (p : Pushed Config.hdrN) : State := { s with mag := p.window, magCnt := p.count }

/-- PFX and PFX_CNT as a push left them. -/
def State.withPfx (s : State) (p : Pushed Config.hdrN) : State := { s with pfx := p.window, pfxCnt := p.count }

/-- SEQW and SEQ_CNT as a push left them. -/
def State.withSeqw (s : State) (p : Pushed Config.seqN) : State := { s with seqw := p.window, seqCnt := p.count }

/-- PAYLOAD and BITMAP, written together (R66). -/
def State.withPayload (s : State) (m : Memory) (b : BitVec 64) : State := { s with payload := m, bitmap := b }

/-- ST <- DONE and DONE <- 1, together (R180). -/
def State.enterDone (s : State) : State := { s with st := .done, done := true }

/-- CRC_ACC <- c. -/
def State.withCrcAcc (s : State) (c : Byte) : State := { s with crcAcc := c }

/-- RDATA <- v. -/
def State.withRdata (s : State) (v : ReadData) : State := { s with rdata := v }

/-- ILLEGAL <- 1 (R36: sticky, only RESET clears it). -/
def State.setIllegal (s : State) : State := { s with illegal := true }

/-! ### The command port and the outcome of a command -/

/-- Take the next presented command word, where there is one (R12, log 1). -/
def takeCommand (s : State) : Option (CmdWord × State) :=
  match s.input with
  | [] => none
  | w :: ws => some (w, s.withInput ws)

/-- No command is presented: the block waits and nothing changes; there is no step output (log 2). -/
def idle (s : State) : State := s.withOut none

/-- The host presents one more command, after those already presented. -/
def State.present (s : State) (w : CmdWord) : State := s.withInput (s.input ++ [w])

/-- The outcome of a rule whose memory accesses may fault. -/
def outcome : Except Fault State → Host.Outcome State Fault Refusal
  | .ok s => .next s
  | .error f => .fault f

end Sys2Proof.Machine
end

