-- ==== Sys2Proof/Machine/Flags.lean ====
section
/-! DEFINITION. The codes of the status registers and the FLAGS word (10_state.md R21, R34, R35, R42). -/

namespace Sys2Proof.Machine

/-- The 3-bit code of ST (R21). -/
def Phase.code : Phase → BitVec 3
  | .lead => 0
  | .magic => 1
  | .prefixCode => 2
  | .sequence => 3
  | .done => 4

/-- The phase that follows in the one order LEAD, MAGIC, PREFIX, SEQUENCE, DONE (R22); DONE has none. -/
def Phase.following : Phase → Option Phase
  | .lead => some .magic
  | .magic => some .prefixCode
  | .prefixCode => some .sequence
  | .sequence => some .done
  | .done => none

/-- The 4-bit code of EVT (R35). -/
def Evt.code : Evt → BitVec 4
  | .none => 0
  | .fill => 1
  | .noMatch => 2
  | .advance => 3
  | .crcFail => 4
  | .badIndex => 5
  | .dup => 6
  | .accept => 7
  | .complete => 8
  | .ignored => 9

/-- The source's DecodeEvent classes (R35). -/
inductive EventClass where
  | progress
  | rejected
  | complete
  deriving DecidableEq, Repr

/-- The DecodeEvent class of an EVT code; NONE and IGNORED have none (R35). -/
def Evt.eventClass : Evt → Option EventClass
  | .none => Option.none
  | .fill => some .progress
  | .noMatch => some .rejected
  | .advance => some .progress
  | .crcFail => some .rejected
  | .badIndex => some .rejected
  | .dup => some .rejected
  | .accept => some .progress
  | .complete => some .complete
  | .ignored => Option.none

/-- FLAGS: bit 0 DONE, bit 1 LEAD_VALID, bit 2 ILLEGAL, the others 0 (R42). -/
def flagsWord (s : State) : ReadData :=
  (BitVec.ofBool s.illegal ++ BitVec.ofBool s.leadValid ++ BitVec.ofBool s.done).setWidth 16

end Sys2Proof.Machine
end

