-- ==== Sys2Proof/Machine/Operands.lean ====
section
/-! DEFINITION. The values the rules take from a length and from a window slot: the delta-adjusted length (R140), a
header's nibbles (R142, R143) and a sequence slot's fields (R171 to R174). -/

namespace Sys2Proof.Machine

/-- adj = (len - DELTA) mod 2^16 (R140). -/
def adjusted (len delta : Len) : Len := len - delta

/-- A header slot's band, W[i] & HDR_MASK (R142). -/
def headerBand (v : Len) : Len := v &&& Config.hdrMask

/-- A header slot's payload nibble, W[i] & 0x0F (R143). -/
def lowNibble (v : Len) : BitVec 4 := v.extractLsb' 0 4

/-- The slot-0 substitution of R143: a nibble of 0x8 stands for 0xF. -/
def slotZeroQuirk (h : BitVec 4) : BitVec 4 := if h = Config.quirkIn then Config.quirkOut else h

/-- (hi << 4) | lo, 8 bits, the high nibble first (R63, R143). -/
def nibblePair (hi lo : BitVec 4) : Byte := hi ++ lo

/-- The 7-bit field of a sequence header slot, W[i] & FIELD7_MASK (R172): the claimed CRC or the index. -/
def field7 (v : Len) : BitVec 7 := (v &&& Config.field7Mask).setWidth 7

/-- A sequence header slot carries its band marker (R171). -/
def seqHeaderMarked (v : Len) : Bool := v &&& Config.seqHdrMask == Config.seqHdrMark

/-- A sequence data slot carries its band marker (R173). -/
def seqDataMarked (v : Len) : Bool := v &&& Config.seqDataMask == Config.seqDataMark

/-- The data byte of a sequence slot, W[2+k] & 0xFF (R174, D28). -/
def dataByte (v : Len) : Byte := v.setWidth 8

end Sys2Proof.Machine
end

