-- ==== Sys2Proof/Machine/Header.lean ====
section
/-! DEFINITION. The nibble-header decoder: OBSERVE while ST = MAGIC and while ST = PREFIX (42_header_decoder.md). -/

namespace Sys2Proof.Machine

/-- HdrValid(W, B): every slot lies in its own band (R142). -/
def headerValid (w bands : Vector Len Config.hdrN) : Bool :=
  headerBand w[0] == bands[0] && headerBand w[1] == bands[1] && headerBand w[2] == bands[2] && headerBand w[3] == bands[3]

/-- The value byte of a validated header window, with the slot-0 substitution (R143). -/
def headerValue (w : Vector Len Config.hdrN) : Byte := nibblePair (slotZeroQuirk (lowNibble w[0])) (lowNibble w[1])

/-- The CRC byte of a validated header window, with no substitution (R143, D9). No rule compares it (R147). -/
def headerCrc (w : Vector Len Config.hdrN) : Byte := nibblePair (lowNibble w[2]) (lowNibble w[3])

/-- ceil(value / 4), the number of fragments (R146). -/
def fragmentCount (value : Byte) : BitVec 7 := BitVec.ofNat 7 ((value.toNat + 3) / 4)

/-- value mod 4, the bytes of a short last fragment (R146). -/
def lastFragmentBytes (value : Byte) : BitVec 2 := BitVec.ofNat 2 (value.toNat % 4)

/-- 2^q - 1: bits 0..q-1 set, "not yet received" (R146, R31). -/
def fullBitmap (q : BitVec 7) : BitVec 64 := BitVec.ofNat 64 (2 ^ q.toNat - 1)

/-- MagicSuccess(value, crc) (R146). -/
def magicSuccess (value crc : Byte) (s : State) : State :=
  { s with
    totalLen := value
    totalCrc := crc
    seqQ := fragmentCount value
    seqR := lastFragmentBytes value
    bitmap := fullBitmap (fragmentCount value)
    st := .prefixCode }

/-- PrefixSuccess(value, crc) (R149). -/
def prefixSuccess (value crc : Byte) (s : State) : State := { s with pwLen := value, pwCrc := crc, st := .sequence }

/-- OBSERVE len while ST = MAGIC (R144). -/
def observeMagic (len : Len) (s : State) : State :=
  let p := push s.mag s.magCnt (adjusted len s.delta)
  let t := (s.withMag p).withOut none
  if !p.full then t.withEvt .fill
  else if headerValid p.window Config.magicBands then
    (magicSuccess (headerValue p.window) (headerCrc p.window) t).withEvt .advance
  else t.withEvt .noMatch

/-- OBSERVE len while ST = PREFIX (R148). -/
def observePrefix (len : Len) (s : State) : State :=
  let p := push s.pfx s.pfxCnt (adjusted len s.delta)
  let t := (s.withPfx p).withOut none
  if !p.full then t.withEvt .fill
  else if headerValid p.window Config.prefixBands then
    (prefixSuccess (headerValue p.window) (headerCrc p.window) t).withEvt .advance
  else t.withEvt .noMatch

end Sys2Proof.Machine
end

