-- ==== Sys2Proof/Machine/Lead.lean ====
section
/-! DEFINITION. The leading-code detector: OBSERVE while ST = LEAD (41_leading_code.md). -/

namespace Sys2Proof.Machine

/-- LeadValid(L): each later slot is the one before it plus 1, on integers, without wrap (R122, R10). -/
def leadValid (w : Vector Len Config.leadN) : Bool :=
  decide (w[1].toNat = w[0].toNat + 1) && decide (w[2].toNat = w[1].toNat + 1) && decide (w[3].toNat = w[2].toNat + 1)

/-- The validating OBSERVE: DELTA <- (LEAD[0] - 1) mod 2^16, LEAD_VALID <- 1, ST <- MAGIC (R123). -/
def leadSuccess (s : State) : State := { s with delta := s.lead[0] - 1, leadValid := true, st := .magic }

/-- OBSERVE len while ST = LEAD (R121). -/
def observeLead (len : Len) (s : State) : State :=
  let p := push s.lead s.leadCnt len
  let t := (s.withLead p).withOut none
  if !p.full then t.withEvt .fill
  else if leadValid p.window then (leadSuccess t).withEvt .advance
  else t.withEvt .noMatch

end Sys2Proof.Machine
end

