-- ==== Sys2Proof/Machine/Crc.lean ====
section
/-! DEFINITION. The CRC-8/MAXIM engine and the stand-alone generator commands (40_crc8.md). -/

namespace Sys2Proof.Machine

/-- One reduction step of R100: a logical shift right, and the exclusive-or with POLY where bit 0 was set. -/
def crcStep (c : Byte) : Byte := if c.getLsbD 0 then (c >>> 1) ^^^ Config.poly else c >>> 1

/-- n reduction steps. -/
def crcSteps : Nat → Byte → Byte
  | 0, c => c
  | n + 1, c => crcSteps n (crcStep c)

/-- crc8_update(acc, b) (R100). -/
def crc8Update (acc b : Byte) : Byte := crcSteps 8 (acc ^^^ b)

/-- crc8(list) (R101). -/
def crc8 (bytes : List Byte) : Byte := bytes.foldl crc8Update Config.crcInit

/-- CRCCLR (R103): CRC_ACC <- CRC_INIT. -/
def execCrcclr (s : State) : Host.Outcome State Fault Refusal := .next ((s.withCrcAcc Config.crcInit).withOut none)

/-- CRCBYTE b (R104): CRC_ACC <- crc8_update(CRC_ACC, b). -/
def execCrcbyte (b : Byte) (s : State) : Host.Outcome State Fault Refusal :=
  .next ((s.withCrcAcc (crc8Update s.crcAcc b)).withOut none)

end Sys2Proof.Machine
end

