-- ==== Sys2Proof/Machine/Sequence.lean ====
section
/-! DEFINITION. The sequence decoder with its bitmap-gated write: OBSERVE while ST = SEQUENCE, and the credential view
(43_sequence.md). -/

namespace Sys2Proof.Machine

/-- HdrOK: slots 0 and 1 carry the header marker (R171). -/
def seqHeaderOk (w : Vector Len Config.seqN) : Bool := seqHeaderMarked w[0] && seqHeaderMarked w[1]

/-- last: SEQ_Q >= 1 and idx = SEQ_Q - 1 (R172). -/
def isLastFragment (q idx : BitVec 7) : Bool := decide (1 ≤ q.toNat) && decide (idx.toNat = q.toNat - 1)

/-- n, the data slots required: SEQ_R for a short last fragment, else 4 (R172, D11). -/
def requiredSlots (q : BitVec 7) (r : BitVec 2) (idx : BitVec 7) : Nat :=
  if isLastFragment q idx && r != 0 then r.toNat else Config.dataMax

/-- The n required data slots, 2 .. 2 + n - 1 (R173). -/
def dataSlots (w : Vector Len Config.seqN) (n : Nat) : List Len := (w.toList.drop 2).take n

/-- DataOK: every required data slot carries the data marker (R173). -/
def seqDataOk (w : Vector Len Config.seqN) (n : Nat) : Bool := (dataSlots w n).all seqDataMarked

/-- data_0 .. data_{n-1} (R174). -/
def fragmentBytes (w : Vector Len Config.seqN) (n : Nat) : List Byte := (dataSlots w n).map dataByte

/-- CrcOK: the low 7 bits of crc8 over index and data are the claimed ones (R175, R105: on a fresh accumulator). -/
def fragmentCrcOk (claimed idx : BitVec 7) (bytes : List Byte) : Bool :=
  (crc8 (idx.setWidth 8 :: bytes)).setWidth 7 == claimed

/-- BITMAP[i] (R177); a bit above the register reads 0 (R9, log 6). -/
def bitmapBit (b : BitVec 64) (i : BitVec 7) : Bool := b.getLsbD i.toNat

/-- BITMAP with BITMAP[i] <- 0 (R179). -/
def clearBitmapBit (b : BitVec 64) (i : BitVec 7) : BitVec 64 := b &&& ~~~(1#64 <<< i.toNat)

/-- A fragment that passed every check. -/
structure Fragment where
  index : BitVec 7
  bytes : List Byte
  deriving DecidableEq, Repr

/-- The checks on a full window in the order of R183 (R171 to R177): the fragment, or the EVT of the first that
fails. -/
def checkFragment (s : State) : Except Evt Fragment :=
  let claimed := field7 s.seqw[0]
  let idx := field7 s.seqw[1]
  let n := requiredSlots s.seqQ s.seqR idx
  let bytes := fragmentBytes s.seqw n
  if !seqHeaderOk s.seqw then .error .noMatch
  else if !seqDataOk s.seqw n then .error .noMatch
  else if !fragmentCrcOk claimed idx bytes then .error .crcFail
  else if s.seqQ.toNat ≤ idx.toNat then .error .badIndex
  else if !bitmapBit s.bitmap idx then .error .dup
  else .ok ⟨idx, bytes⟩

/-- ssid_len, saturating at 0 (R182, D16). -/
def ssidLength (s : State) : Nat :=
  if s.pwLen.toNat + 1 < s.totalLen.toNat then s.totalLen.toNat - s.pwLen.toNat - 1 else 0

/-- nonce = MemRead(PW_LEN, 1) (R182). -/
def credentialNonce (s : State) : Except Fault Byte := memRead s.payload s.pwLen.toNat

/-- The credential view of R182. -/
def credential (s : State) : Except Fault Credential :=
  match memReadBytes s.payload 0 s.pwLen.toNat, credentialNonce s,
      memReadBytes s.payload (s.pwLen.toNat + 1) (ssidLength s) with
  | .ok password, .ok nonce, .ok ssid => .ok ⟨password, nonce, ssid⟩
  | .error f, _, _ => .error f
  | _, .error f, _ => .error f
  | _, _, .error f => .error f

/-- Completion: ST <- DONE, DONE <- 1, EVT <- COMPLETE, and the credential on the state after the command is the step
output (R180, R39). -/
def completeDecode (s : State) : Except Fault State :=
  let t := s.enterDone.withEvt .complete
  match credential t with
  | .error f => .error f
  | .ok c => .ok (t.withOut (some c))

/-- The bitmap-gated write and the completion test (R179, R180). -/
def acceptFragment (f : Fragment) (s : State) : Except Fault State :=
  match memWriteBytes s.payload (4 * f.index.toNat) f.bytes with
  | .error e => .error e
  | .ok m =>
    let t := s.withPayload m (clearBitmapBit s.bitmap f.index)
    if t.bitmap = 0 then completeDecode t else .ok ((t.withEvt .accept).withOut none)

/-- OBSERVE len while ST = SEQUENCE (R183). The window keeps sliding whatever the outcome (R178). -/
def observeSequence (len : Len) (s : State) : Except Fault State :=
  let p := push s.seqw s.seqCnt (adjusted len s.delta)
  let t := (s.withSeqw p).withOut none
  if !p.full then .ok (t.withEvt .fill)
  else
    match checkFragment t with
    | .error e => .ok (t.withEvt e)
    | .ok f => acceptFragment f t

end Sys2Proof.Machine
end

