-- ==== Sys2Proof/Machine/Control.lean ====
section
/-! DEFINITION. The provisioning FSM's OBSERVE dispatch, RESET, READ with the status map, and illegal words
(44_control.md, 10_state.md R42). -/

namespace Sys2Proof.Machine

/-- OBSERVE len while ST = DONE: EVT <- IGNORED and nothing else (R202). -/
def observeDone (s : State) : State := (s.withEvt .ignored).withOut none

/-- OBSERVE len: the unit active in the current phase handles the observation, and no other (R201). -/
def execObserve (len : Len) (s : State) : Host.Outcome State Fault Refusal :=
  match s.st with
  | .lead => .next (observeLead len s)
  | .magic => .next (observeMagic len s)
  | .prefixCode => .next (observePrefix len s)
  | .sequence => outcome (observeSequence len s)
  | .done => .next (observeDone s)

/-- RESET: every state element takes its reset value (R203, R400). The commands the host has yet to have performed are
the host's and stay (log 8). -/
def execReset (s : State) : Host.Outcome State Fault Refusal := .next (State.reset.withInput s.input)

/-- The locations of the status map (R42). -/
inductive StatusLoc where
  | state
  | evt
  | flags
  | delta
  | totalLen
  | totalCrc
  | pwLen
  | pwCrc
  | seqQ
  | seqR
  | bitmap (i : Fin 4)
  | crcAcc
  | credNonce
  | credSsidLen
  | leadCnt
  | magCnt
  | pfxCnt
  | seqCnt
  | lead (i : Fin 4)
  | mag (i : Fin 4)
  | pfx (i : Fin 4)
  | seqw (i : Fin 6)
  | payload (a : Fin 256)
  deriving DecidableEq, Repr

/-- The locations at 0x000 .. 0x014, in address order (R42). -/
def lowStatusLocs : List StatusLoc :=
  [.state, .evt, .flags, .delta, .totalLen, .totalCrc, .pwLen, .pwCrc, .seqQ, .seqR, .bitmap 0, .bitmap 1, .bitmap 2,
    .bitmap 3, .crcAcc, .credNonce, .credSsidLen, .leadCnt, .magCnt, .pfxCnt, .seqCnt]

/-- The location a status address names; none where the table does not list it (R42). -/
def statusLoc (addr : StatusAddr) : Option StatusLoc :=
  let a := addr.toNat
  if a < 0x15 then lowStatusLocs[a]?
  else if h : 0x20 ≤ a ∧ a < 0x24 then some (.lead ⟨a - 0x20, by omega⟩)
  else if h : 0x24 ≤ a ∧ a < 0x28 then some (.mag ⟨a - 0x24, by omega⟩)
  else if h : 0x28 ≤ a ∧ a < 0x2C then some (.pfx ⟨a - 0x28, by omega⟩)
  else if h : 0x30 ≤ a ∧ a < 0x36 then some (.seqw ⟨a - 0x30, by omega⟩)
  else if h : 0x100 ≤ a ∧ a < 0x200 then some (.payload ⟨a - 0x100, by omega⟩)
  else none

/-- The value at a location, zero-extended to 16 bits (R42, R64). -/
def statusValue (s : State) : StatusLoc → Except Fault ReadData
  | .state => .ok (s.st.code.setWidth 16)
  | .evt => .ok (s.evt.code.setWidth 16)
  | .flags => .ok (flagsWord s)
  | .delta => .ok s.delta
  | .totalLen => .ok (s.totalLen.setWidth 16)
  | .totalCrc => .ok (s.totalCrc.setWidth 16)
  | .pwLen => .ok (s.pwLen.setWidth 16)
  | .pwCrc => .ok (s.pwCrc.setWidth 16)
  | .seqQ => .ok (s.seqQ.setWidth 16)
  | .seqR => .ok (s.seqR.setWidth 16)
  | .bitmap i => .ok (s.bitmap.extractLsb' (16 * i.val) 16)
  | .crcAcc => .ok (s.crcAcc.setWidth 16)
  | .credNonce => (credentialNonce s).map fun b => b.setWidth 16
  | .credSsidLen => .ok (BitVec.ofNat 16 (ssidLength s))
  | .leadCnt => .ok (s.leadCnt.setWidth 16)
  | .magCnt => .ok (s.magCnt.setWidth 16)
  | .pfxCnt => .ok (s.pfxCnt.setWidth 16)
  | .seqCnt => .ok (s.seqCnt.setWidth 16)
  | .lead i => .ok s.lead[i.val]
  | .mag i => .ok s.mag[i.val]
  | .pfx i => .ok s.pfx[i.val]
  | .seqw i => .ok s.seqw[i.val]
  | .payload a => (memRead s.payload a.val).map fun b => b.setWidth 16

/-- StatusMap(addr) on a state; an address the table does not list reads 0 (R42, R204). -/
def statusMap (s : State) (addr : StatusAddr) : Except Fault ReadData :=
  match statusLoc addr with
  | none => .ok 0
  | some loc => statusValue s loc

/-- READ addr: RDATA <- StatusMap(addr), evaluated on the state before the command (R204). -/
def execRead (addr : StatusAddr) (s : State) : Host.Outcome State Fault Refusal :=
  outcome ((statusMap s addr).map fun v => (s.withRdata v).withOut none)

/-- An illegal command word: ILLEGAL <- 1 and nothing else (R205). -/
def takeIllegal (s : State) : State := s.setIllegal.withOut none

end Sys2Proof.Machine
end

