-- ==== Sys2Proof/Machine/Dispatch.lean ====
section
/-! DEFINITION. The meaning of each command (30_encoding.md R82). -/

namespace Sys2Proof.Machine

/-- One command performed to completion (00_scope.md R12): a legal word goes to the rule the opcode table names. -/
def exec (i : Instr) (s : State) : Host.Outcome State Fault Refusal :=
  match i with
  | .observe len => Sys2Proof.Machine.execObserve len s
  | .reset => Sys2Proof.Machine.execReset s
  | .crcclr => Sys2Proof.Machine.execCrcclr s
  | .crcbyte b => Sys2Proof.Machine.execCrcbyte b s
  | .read addr => Sys2Proof.Machine.execRead addr s

end Sys2Proof.Machine
end

