-- ==== Sys2Proof/Machine/Step.lean ====
section
/-! DEFINITION. One step of the block (44_control.md R200): the next presented command word is decoded and performed. -/

namespace Sys2Proof.Machine

/-- Take the next command word; perform the command it decodes to, or flag it where it is illegal (R200, R205). With no
word presented the block waits (log 2). -/
def step (s : State) : Host.Outcome State Fault Refusal :=
  match takeCommand s with
  | none => .next (idle s)
  | some (w, t) =>
    match decode w with
    | .ok i => exec i t
    | .error _ => .next (takeIllegal t)

/-- The host presents the opcode-table word w ahead of the commands already presented, so that the next step performs it
(log 1). -/
def State.withFetchWord (s : State) (nbits w : Nat) : State :=
  match tableWord nbits w with
  | none => s
  | some word => s.withInput (word :: s.input)

end Sys2Proof.Machine
end

