-- ==== Sys2Proof/Machine/Assembler.lean ====
section
/-! DEFINITION. The assembler of command set v1: the pseudo-instructions' expansion, the words of a line, and the text of
a line (30_encoding.md R87, R88). It stands beside the block; no rule of the block reads it. -/

namespace Sys2Proof.Machine

/-! ### The encoder's lengths (R88) -/

/-- The four lengths of lead d. -/
def leadLengths (d : Len) : List Len := [d + 1, d + 2, d + 3, d + 4]

/-- The four lengths of a header with the given bands, value v and CRC byte c, at offset d: one nibble in each band, the
high nibble of v first. -/
def headerLengths (bands : Vector Len Config.hdrN) (v c : Byte) (d : Len) : List Len :=
  [d + (bands[0] ||| (v >>> 4).setWidth 16), d + (bands[1] ||| (v &&& 0x0F#8).setWidth 16),
    d + (bands[2] ||| (c >>> 4).setWidth 16), d + (bands[3] ||| (c &&& 0x0F#8).setWidth 16)]

/-- The lengths of frag i, bytes, d: the 7-bit CRC over index and bytes, the index, and the bytes. -/
def fragmentLengths (i : BitVec 7) (bytes : List Byte) (d : Len) : List Len :=
  (d + (Config.seqHdrMark ||| ((crc8 (i.setWidth 8 :: bytes)).setWidth 16 &&& Config.field7Mask))) ::
    (d + (Config.seqHdrMark ||| i.setWidth 16)) :: bytes.map fun b => d + (Config.seqDataMark ||| b.setWidth 16)

/-- The commands of a line (R87, R88). -/
def expandLine : AsmLine → List Instr
  | .observe len => [.observe (BitVec.ofNat 16 len)]
  | .reset => [.reset]
  | .crcclr => [.crcclr]
  | .crcbyte b => [.crcbyte (BitVec.ofNat 8 b)]
  | .read addr => [.read (BitVec.ofNat 16 addr)]
  | .leadCode d => (leadLengths (BitVec.ofNat 16 d)).map .observe
  | .magicCode v c d =>
    (headerLengths Config.magicBands (BitVec.ofNat 8 v) (BitVec.ofNat 8 c) (BitVec.ofNat 16 d)).map .observe
  | .prefixCode v c d =>
    (headerLengths Config.prefixBands (BitVec.ofNat 8 v) (BitVec.ofNat 8 c) (BitVec.ofNat 16 d)).map .observe
  | .frag i bytes d => (fragmentLengths (BitVec.ofNat 7 i) (bytes.map (BitVec.ofNat 8)) (BitVec.ofNat 16 d)).map .observe

/-- The words of a line; none where the assembler refuses it (R87). -/
def assemble (l : AsmLine) : Option (List CmdWord) :=
  if l.wellFormed then some ((expandLine l).map encode) else none

/-! ### The text of a line (R87; what the spec leaves open of it is in log 13) -/

/-- What stands before the first `;`. -/
def stripComment : List Char → List Char
  | [] => []
  | c :: cs => if c = ';' then [] else c :: stripComment cs

/-- A blank between words. -/
def isBlank (c : Char) : Bool := c == ' ' || c == '\t' || c == '\r'

/-- The text without blanks at either end. -/
def trimBlanks (cs : List Char) : List Char := ((cs.dropWhile isBlank).reverse.dropWhile isBlank).reverse

/-- The pieces between the separators, at least one. -/
def splitAtChar (sep : Char) : List Char → List (List Char)
  | [] => [[]]
  | c :: cs =>
    match splitAtChar sep cs with
    | [] => [[c]]
    | piece :: pieces => if c = sep then [] :: piece :: pieces else (c :: piece) :: pieces

/-- The value of a digit character, hexadecimal digits in either case. -/
def digitValue (c : Char) : Option Nat :=
  let n := c.toNat
  if 48 ≤ n ∧ n ≤ 57 then some (n - 48)
  else if 97 ≤ n ∧ n ≤ 102 then some (n - 87)
  else if 65 ≤ n ∧ n ≤ 70 then some (n - 55)
  else none

/-- The number the digits give in the base, after acc. -/
def digitsValue (base acc : Nat) : List Char → Option Nat
  | [] => some acc
  | c :: cs =>
    match digitValue c with
    | none => none
    | some d => if d < base then digitsValue base (acc * base + d) cs else none

/-- A number in decimal or 0x hex. -/
def parseNumber : List Char → Option Nat
  | [] => none
  | '0' :: 'x' :: [] => none
  | '0' :: 'x' :: c :: cs => digitsValue 16 0 (c :: cs)
  | c :: cs => digitsValue 10 0 (c :: cs)

/-- The operands of a line: numbers between commas; no operand where there is no text. -/
def parseOperands (cs : List Char) : Option (List Nat) :=
  if trimBlanks cs = [] then some [] else ((splitAtChar ',' cs).map trimBlanks).mapM parseNumber

/-- The line a mnemonic and its operands stand for. -/
def asmLine (name : List Char) (operands : List Nat) : Option AsmLine :=
  match operands with
  | [] => if name = "reset".toList then some .reset else if name = "crcclr".toList then some .crcclr else none
  | [a] =>
    if name = "observe".toList then some (.observe a)
    else if name = "crcbyte".toList then some (.crcbyte a)
    else if name = "read".toList then some (.read a)
    else if name = "lead".toList then some (.leadCode a)
    else none
  | [_, _] => none
  | a :: b :: c :: rest =>
    if name = "magic".toList ∧ rest = [] then some (.magicCode a b c)
    else if name = "prefix".toList ∧ rest = [] then some (.prefixCode a b c)
    else if name = "frag".toList then some (.frag a ((b :: c :: rest).dropLast) ((c :: rest).getLastD 0))
    else none

/-- The words of one line of text, none for a blank line or a comment; refused where it is no line of the syntax or a
number is out of range. -/
def assembleTextLine (text : List Char) : Option (List CmdWord) :=
  let body := trimBlanks (stripComment text)
  if body = [] then some []
  else
    match parseOperands (body.dropWhile fun c => !isBlank c) with
    | none => none
    | some operands =>
      match asmLine (body.takeWhile fun c => !isBlank c) operands with
      | none => none
      | some l => assemble l

/-- The words of a text, one command a line (R87); refused where one of its lines is. -/
def assembleText (text : List Char) : Option (List CmdWord) :=
  ((splitAtChar '\n' text).mapM assembleTextLine).map List.flatten

end Sys2Proof.Machine
end

