-- ==== Sys2Proof/Safety.lean ====
section
/-! DEFINITION. What the claims speak of: the invariants of 10_state.md R40 and R41, lists of commands performed in order,
and the part of the state that decoding reads. -/

namespace Sys2Proof.Machine

/-- The consistency invariants of R41, one field per line of it. -/
structure State.Consistent (s : State) : Prop where
  lead : s.st = .lead → s.magCnt = 0 ∧ s.pfxCnt = 0 ∧ s.seqCnt = 0 ∧ s.leadValid = false
  magic : s.st = .magic → s.pfxCnt = 0 ∧ s.seqCnt = 0 ∧ s.leadCnt = 4
  prefixCode : s.st = .prefixCode → s.seqCnt = 0 ∧ s.magCnt = 4
  sequenceOrDone : s.st = .sequence ∨ s.st = .done → s.pfxCnt = 4
  lengths : s.st = .prefixCode ∨ s.st = .sequence ∨ s.st = .done →
    s.seqQ.toNat = (s.totalLen.toNat + 3) / 4 ∧ s.seqR.toNat = s.totalLen.toNat % 4
  doneFlag : s.st = .done ↔ s.done = true
  doneBitmap : s.st = .done → s.bitmap = 0
  bitmap : s.bitmap.toNat < 2 ^ s.seqQ.toNat

/-- The legal values of the counters and of SEQ_Q (R23, R26, R27, R29, R30). -/
structure State.InRange (s : State) : Prop where
  leadCnt : s.leadCnt.toNat ≤ 4
  magCnt : s.magCnt.toNat ≤ 4
  pfxCnt : s.pfxCnt.toNat ≤ 4
  seqCnt : s.seqCnt.toNat ≤ 6
  seqQ : s.seqQ.toNat ≤ 64

/-- A window slot at or past its counter holds 0 (R40). -/
structure State.UnfilledSlotsZero (s : State) : Prop where
  lead : ∀ i, (h : i < 4) → s.leadCnt.toNat ≤ i → s.lead[i] = 0
  mag : ∀ i, (h : i < 4) → s.magCnt.toNat ≤ i → s.mag[i] = 0
  pfx : ∀ i, (h : i < 4) → s.pfxCnt.toNat ≤ i → s.pfx[i] = 0
  seqw : ∀ i, (h : i < 6) → s.seqCnt.toNat ≤ i → s.seqw[i] = 0

/-- LEAD_VALID reads 1 exactly when ST is not LEAD, and DONE exactly when ST = DONE (R24, R33). -/
structure State.FlagsTrackPhase (s : State) : Prop where
  leadValid : s.leadValid = true ↔ s.st ≠ .lead
  done : s.done = true ↔ s.st = .done

/-- Before phase SEQUENCE the payload is empty; a payload byte that is not 0 lies below TOTAL_LEN and its fragment has
been accepted (R31, R32, R204). -/
structure State.PayloadAccepted (s : State) : Prop where
  empty : s.st = .lead ∨ s.st = .magic ∨ s.st = .prefixCode → s.payload = []
  byte : ∀ a, s.payload.peek a ≠ 0 → a < s.totalLen.toNat ∧ s.bitmap.getLsbD (a / 4) = false

/-- A credential is output only on the completing OBSERVE, and it is the credential view of the state (R39). -/
def State.OutputSound (s : State) : Prop :=
  ∀ c, s.out = some c → s.st = .done ∧ s.evt = .complete ∧ credential s = .ok c

/-- The commands performed one after another (R12, R69), up to the first that does not answer a next state. -/
def perform : List Instr → State → Host.Outcome State Fault Refusal
  | [], s => .next s
  | i :: is, s =>
    match exec i s with
    | .next t => perform is t
    | .fault f => .fault f
    | .refused r => .refused r

/-- The lengths observed one after another. -/
def observeAll (lens : List Len) (s : State) : Host.Outcome State Fault Refusal := perform (lens.map .observe) s

/-- The command is an OBSERVE. -/
def isObserve : Instr → Bool
  | .observe _ => true
  | .reset => false
  | .crcclr => false
  | .crcbyte _ => false
  | .read _ => false

/-- The command drives the decoder: an OBSERVE or a RESET; the others are the CRC port and the status port. -/
def drivesDecoder : Instr → Bool
  | .observe _ => true
  | .reset => true
  | .crcclr => false
  | .crcbyte _ => false
  | .read _ => false

/-- The state less what the CRC port, the status port, illegal words and the step output write (R36 to R39). -/
def State.decoderView (s : State) : State := { s with crcAcc := 0, rdata := 0, illegal := false, out := none }

/-- READ addr completes and returns v, writing RDATA and nothing else (R204). -/
def readReturns (s : State) (addr v : Nat) : Prop :=
  exec (.read (BitVec.ofNat 16 addr)) s = .next { s with rdata := BitVec.ofNat 16 v, out := none }

/-- An OBSERVE len in phase SEQUENCE whose push leaves the full window w0 .. w5, oldest first (R170). -/
def sequenceWindowFull (s : State) (len w0 w1 w2 w3 w4 w5 : Len) : Prop :=
  s.st = .sequence ∧ w5 = len - s.delta ∧
    ((s.seqCnt = 5 ∧ ∃ x, s.seqw = #v[w0, w1, w2, w3, w4, x]) ∨ (s.seqCnt = 6 ∧ ∃ x, s.seqw = #v[x, w0, w1, w2, w3, w4]))

/-- The number of data bytes fragment idx carries when the payload has q fragments and q's last has r bytes, or 4 where
r is 0 (R172), on integers. -/
def fragmentSize (q r idx : Nat) : Nat := if 1 ≤ q ∧ idx = q - 1 ∧ r ≠ 0 then r else 4

/-- The bytes fragment idx carries of the content f of a payload of total bytes. -/
def fragmentOf (f : Nat → Byte) (total idx : Nat) : List Byte :=
  (List.range (fragmentSize ((total + 3) / 4) (total % 4) idx)).map fun k => f (4 * idx + k)

/-- One step of the CRC with polynomial 0x31, most significant bit first (40_crc8.md R100's remark, 93 G1). -/
def crcForwardStep (c : Byte) : Byte := if c.msb then (c <<< 1) ^^^ 0x31#8 else c <<< 1

/-- n steps of the CRC with polynomial 0x31, most significant bit first. -/
def crcForwardSteps : Nat → Byte → Byte
  | 0, c => c
  | n + 1, c => crcForwardSteps n (crcForwardStep c)

/-- One window after the values vs have been pushed into it, oldest first, starting empty. -/
def pushAll {n : Nat} (vs : List Len) : Pushed n :=
  vs.foldl (fun p v => push p.window p.count v) ⟨Vector.replicate n 0, 0, false⟩

end Sys2Proof.Machine
end

