-- ==== Sys2Proof/Certificates/Slice0/Obligations.lean ====
section
/-! DEFINITION. The statements for the provers. The step output `out` and the list `input` are fields of the model's own
(logs 1 and 3); where a statement is an inference the spec marks as its own, its docstring says so. -/

open Sys2Proof Sys2Proof.Machine

/-! ### Encoding -/

/-- Decoding an encoded command gives it back, with every operand at every value (30_encoding.md sections 1 to 3). -/
def Obligations.DecodeOfEncodeIsTheCommand : Prop :=
  ∀ i : Instr, i.wellFormed = true → decode (encode i) = .ok i

/-- A word that decodes is the one encoding of its command: no bit of a legal word is dropped (30_encoding.md sections 2
to 4). -/
def Obligations.EncodeOfDecodeIsTheWord : Prop :=
  ∀ (w : CmdWord) (i : Instr), decode w = .ok i → encode i = w

/-- The illegal words are exactly those of R84's four cases, on the numbers OP, RSVD and ARG (30_encoding.md section 4);
an illegal word sets ILLEGAL and changes nothing else (R205 of 44_control.md section 5); every other word fits the match
and mask of exactly one command. The last clause is an inference the spec marks as its own (R84's last sentence); that
words wait in the list `input`, and that the step takes the first, is the model's choice, log 1. -/
def Obligations.IllegalWordsAreExactlyThoseOfTheRule : Prop :=
  ∀ w : CmdWord,
    let op := w.toNat / 2 ^ 28
    let rsvd := w.toNat / 2 ^ 16 % 2 ^ 12
    let arg := w.toNat % 2 ^ 16
    let illegal := op = 0 ∨ 6 ≤ op ∨ rsvd ≠ 0 ∨ ((op = 2 ∨ op = 3) ∧ arg ≠ 0) ∨ (op = 4 ∧ arg / 2 ^ 8 ≠ 0)
    (illegal → (∃ e, decode w = .error e) ∧
      ∀ s ws, s.input = w :: ws → step s = .next { s with input := ws, illegal := true, out := none }) ∧
    (¬illegal → ∃ i, decode w = .ok i ∧ (opcodeRow i).fits w = true ∧
      ∀ j, (opcodeRow j).fits w = true → opcodeRow j = opcodeRow i)

/-- R83: each command's operands are the plain fields of ARG, and RESET and CRCCLR have none; the whole range of each
field is accepted. -/
def Obligations.OperandsAreTheFieldsOfArg : Prop :=
  (∀ w len, decode w = .ok (.observe len) → len.toNat = w.toNat % 2 ^ 16) ∧
  (∀ w b, decode w = .ok (.crcbyte b) → b.toNat = w.toNat % 2 ^ 8) ∧
  (∀ w addr, decode w = .ok (.read addr) → addr.toNat = w.toNat % 2 ^ 16) ∧
  (∀ n, n < 2 ^ 16 → decode (BitVec.ofNat 32 (0x10000000 + n)) = .ok (.observe (BitVec.ofNat 16 n))) ∧
  (∀ n, n < 2 ^ 8 → decode (BitVec.ofNat 32 (0x40000000 + n)) = .ok (.crcbyte (BitVec.ofNat 8 n))) ∧
  (∀ n, n < 2 ^ 16 → decode (BitVec.ofNat 32 (0x50000000 + n)) = .ok (.read (BitVec.ofNat 16 n))) ∧
  decode 0x20000000#32 = .ok .reset ∧ decode 0x30000000#32 = .ok .crcclr

/-- Words of 95_test_vectors.md section 4 and 5 decode to the commands they stand for, and its illegal words do not. -/
def Obligations.VectorWordsDecodeToTheirCommands : Prop :=
  decode 0x10000000#32 = .ok (.observe 0) ∧ decode 0x1000FFFF#32 = .ok (.observe 0xFFFF#16) ∧
  decode 0x10000119#32 = .ok (.observe 281#16) ∧ decode 0x20000000#32 = .ok .reset ∧ decode 0x30000000#32 = .ok .crcclr ∧
  decode 0x40000031#32 = .ok (.crcbyte 0x31#8) ∧ decode 0x50000108#32 = .ok (.read 0x108#16) ∧
  decode 0x10010000#32 = .error .reserved ∧ decode 0x20000001#32 = .error .operand ∧
  decode 0x30000100#32 = .error .operand ∧ decode 0x40000100#32 = .error .byteHigh ∧
  decode 0x00000000#32 = .error .opcode ∧ decode 0x60000000#32 = .error .opcode ∧ decode 0xF0000000#32 = .error .opcode

/-- The assembler accepts exactly the numbers in range and gives the words of R87's table (30_encoding.md section 5; the
reading of its text is the model's, log 13). -/
def Obligations.AssemblerWordsAndRanges : Prop :=
  (∀ n, assemble (.observe n) = if n ≤ 65535 then some [BitVec.ofNat 32 (0x10000000 + n)] else none) ∧
  (∀ n, assemble (.crcbyte n) = if n ≤ 255 then some [BitVec.ofNat 32 (0x40000000 + n)] else none) ∧
  (∀ n, assemble (.read n) = if n ≤ 65535 then some [BitVec.ofNat 32 (0x50000000 + n)] else none) ∧
  assemble .reset = some [0x20000000#32] ∧ assemble .crcclr = some [0x30000000#32]

/-! ### The step -/

/-- When the next presented word decodes to a command, the step performs that command on the state without the word
(44_control.md section 1; that presented words wait in a list is the model's choice, log 1). -/
def Obligations.StepPerformsTheDecodedCommand : Prop :=
  ∀ (s : State) (w : CmdWord) (ws : List CmdWord) (i : Instr),
    s.input = w :: ws → decode w = .ok i → step s = exec i { s with input := ws }

/-- With no word presented the step changes nothing (the model's choice, log 2). -/
def Obligations.StepWaitsWithoutACommand : Prop :=
  ∀ s : State, s.input = [] → step s = .next { s with out := none }

/-- Presented commands are performed one at a time, in the order presented, each on the state the one before it left, and
what is presented after them waits (20_memory.md section 5, 00_scope.md section 4; the list is the model's, log 1). -/
def Obligations.PresentedCommandsRunInOrder : Prop :=
  ∀ (is : List Instr) (rest : List CmdWord) (s : State),
    Sys2Proof.core.run is.length { s with input := is.map encode ++ rest } = perform is { s with input := rest }

/-- No command in any state raises an exception, a trap or a fault (R300 of 60_exceptions.md section 1), and every step
answers a next state. That a step takes its word from the list `input` is the model's choice, log 1, and so is the step
with no word presented, log 2. -/
def Obligations.NoCommandFaultsInAnyState : Prop :=
  (∀ (i : Instr) (s : State), ∃ t, exec i s = .next t) ∧ ∀ s : State, ∃ t, step s = .next t

/-! ### The CRC engine and its commands -/

/-- R100: crc8_update is the exclusive-or and then eight times: shift right, and exclusive-or with 0x8C where bit 0 was
set; said on numbers. -/
def Obligations.CrcUpdateIsTheReductionLoop : Prop :=
  ∀ acc b : Byte,
    (crc8Update acc b).toNat =
      (fun c : Nat => if c % 2 = 1 then (c / 2) ^^^ 0x8C else c / 2)^[8] (acc.toNat ^^^ b.toNat)

/-- crc8 starts from 0x00 and updates byte by byte, with no final step (R101 of 40_crc8.md section 1). Its values on no
byte and on a zero byte are an inference the spec marks as its own; the check value 0xA1 comes there from general
knowledge, and is derived as well (93_implementation_defined.md G2). -/
def Obligations.Crc8FoldsFromZero : Prop :=
  crc8 [] = 0x00#8 ∧ crc8 [0x00] = 0x00#8 ∧ (∀ (bytes : List Byte) (b : Byte), crc8 (bytes ++ [b]) = crc8Update (crc8 bytes) b) ∧
  crc8 [0x31, 0x32, 0x33, 0x34, 0x35, 0x36, 0x37, 0x38, 0x39] = 0xA1#8

/-- The properties 40_crc8.md section 1 derives (the spec marks them as its own inference): splitting a list, absorbing
the accumulator, linearity, and a bijection in the byte. -/
def Obligations.CrcAlgebra : Prop :=
  (∀ xs ys : List Byte, crc8 (xs ++ ys) = ys.foldl crc8Update (crc8 xs)) ∧
  (∀ a b : Byte, crc8Update a b = crc8Update (a ^^^ b) 0x00#8) ∧
  (∀ a₁ a₂ b₁ b₂ : Byte, crc8Update (a₁ ^^^ a₂) (b₁ ^^^ b₂) = crc8Update a₁ b₁ ^^^ crc8Update a₂ b₂) ∧
  (∀ acc : Byte, Function.Bijective (crc8Update acc))

/-- The engine is the reflected form of the CRC with polynomial 0x31 taken most significant bit first (40_crc8.md
section 1's remark, 93_implementation_defined.md G1, marked there as general knowledge). -/
def Obligations.CrcIsReflectedPolynomial31 : Prop :=
  ∀ acc b : Byte, (crc8Update acc b).reverse = crcForwardSteps 8 (acc.reverse ^^^ b.reverse)

/-- R103: CRCCLR sets CRC_ACC to 0x00 and changes nothing else, in every phase; twice is the same as once; a word with
OP = 0x3 and any other bit set is illegal. -/
def Obligations.CrcclrClearsTheAccumulator : Prop :=
  (∀ s : State, exec .crcclr s = .next { s with crcAcc := 0x00#8, out := none }) ∧
  (∀ s : State, perform [.crcclr, .crcclr] s = perform [.crcclr] s) ∧
  ∀ w : CmdWord, w.toNat / 2 ^ 28 = 3 → w ≠ 0x30000000#32 → ∃ e, decode w = .error e

/-- R104: CRCBYTE b updates CRC_ACC by crc8_update and changes nothing else, in every phase; a zero byte leaves 0x00, and
0x01 makes 0x5E of it; a word with OP = 0x4 and ARG[15:8] non-zero is illegal, and taking an illegal word changes only
ILLEGAL, so CRC_ACC stays. -/
def Obligations.CrcbyteUpdatesTheAccumulator : Prop :=
  (∀ (b : Byte) (s : State), exec (.crcbyte b) s = .next { s with crcAcc := crc8Update s.crcAcc b, out := none }) ∧
  crc8Update 0x00#8 0x00#8 = 0x00#8 ∧ crc8Update 0x00#8 0x01#8 = 0x5E#8 ∧
  (∀ w : CmdWord, w.toNat / 2 ^ 28 = 4 → w.toNat % 2 ^ 16 / 2 ^ 8 ≠ 0 → ∃ e, decode w = .error e) ∧
  ∀ s : State, takeIllegal s = { s with illegal := true, out := none }

/-- After CRCCLR and a stream of CRCBYTEs, CRC_ACC is crc8 of the bytes and nothing else is changed: an inference the spec
marks as its own (R104's corner cases, 40_crc8.md section 2). -/
def Obligations.CrcbyteStreamGivesTheCrc8 : Prop :=
  ∀ (bytes : List Byte) (s : State),
    perform (.crcclr :: bytes.map .crcbyte) s = .next { s with crcAcc := crc8 bytes, out := none }

/-- The step that finds a CRCBYTE word with ARG[15:8] non-zero sets ILLEGAL and leaves CRC_ACC, like every other element
(R104 of 40_crc8.md section 2, R205 of 44_control.md section 5). That words wait in the list `input` is the model's
choice, log 1. -/
def Obligations.IllegalCrcbyteWordLeavesTheAccumulator : Prop :=
  ∀ (hi lo : Byte) (s : State) (ws : List CmdWord), hi ≠ 0 → s.input = (0x4000#16 ++ hi ++ lo) :: ws →
    ∃ t, step s = .next t ∧ t.crcAcc = s.crcAcc ∧ t = { s with input := ws, illegal := true, out := none }

/-! ### RESET and READ -/

/-- Every element's reset value, and the RESET command gives the same state as power-on, in every phase (R400 of
70_reset_and_hazards.md section 1, R203 of 44_control.md section 3). The model's own: the commands still presented stay
(DESIGN CHOICE, log 8), and the step output at reset is none (DESIGN CHOICE, log 3). -/
def Obligations.ResetGivesTheResetValues : Prop :=
  (let r := State.reset;
    r.st = .lead ∧ r.lead = #v[0, 0, 0, 0] ∧ r.leadCnt = 0 ∧ r.leadValid = false ∧ r.delta = 0 ∧
    r.mag = #v[0, 0, 0, 0] ∧ r.magCnt = 0 ∧ r.pfx = #v[0, 0, 0, 0] ∧ r.pfxCnt = 0 ∧ r.totalLen = 0 ∧ r.totalCrc = 0 ∧
    r.pwLen = 0 ∧ r.pwCrc = 0 ∧ r.seqQ = 0 ∧ r.seqR = 0 ∧ r.seqw = #v[0, 0, 0, 0, 0, 0] ∧ r.seqCnt = 0 ∧ r.bitmap = 0 ∧
    (∀ a, r.payload.peek a = 0) ∧ r.done = false ∧ r.evt = .none ∧ r.illegal = false ∧ r.crcAcc = 0x00#8 ∧ r.rdata = 0) ∧
  ∀ s : State, exec .reset s = .next { State.reset with input := s.input }

/-- R42: READ of each address of the status map, on the state before the command, the value zero-extended to 16
bits, 0 where the map lists nothing; RDATA is the only element written. -/
def Obligations.ReadReturnsTheStatusMap : Prop :=
  ∀ s : State,
    ((s.st = .lead → readReturns s 0x000 0) ∧ (s.st = .magic → readReturns s 0x000 1) ∧
      (s.st = .prefixCode → readReturns s 0x000 2) ∧ (s.st = .sequence → readReturns s 0x000 3) ∧
      (s.st = .done → readReturns s 0x000 4)) ∧
    ((s.evt = .none → readReturns s 0x001 0) ∧ (s.evt = .fill → readReturns s 0x001 1) ∧
      (s.evt = .noMatch → readReturns s 0x001 2) ∧ (s.evt = .advance → readReturns s 0x001 3) ∧
      (s.evt = .crcFail → readReturns s 0x001 4) ∧ (s.evt = .badIndex → readReturns s 0x001 5) ∧
      (s.evt = .dup → readReturns s 0x001 6) ∧ (s.evt = .accept → readReturns s 0x001 7) ∧
      (s.evt = .complete → readReturns s 0x001 8) ∧ (s.evt = .ignored → readReturns s 0x001 9)) ∧
    readReturns s 0x002 (s.done.toNat + 2 * s.leadValid.toNat + 4 * s.illegal.toNat) ∧
    readReturns s 0x003 s.delta.toNat ∧ readReturns s 0x004 s.totalLen.toNat ∧ readReturns s 0x005 s.totalCrc.toNat ∧
    readReturns s 0x006 s.pwLen.toNat ∧ readReturns s 0x007 s.pwCrc.toNat ∧ readReturns s 0x008 s.seqQ.toNat ∧
    readReturns s 0x009 s.seqR.toNat ∧
    (∀ i, i < 4 → readReturns s (0x00A + i) (s.bitmap.toNat / 2 ^ (16 * i) % 2 ^ 16)) ∧
    readReturns s 0x00E s.crcAcc.toNat ∧ readReturns s 0x00F (s.payload.peek s.pwLen.toNat).toNat ∧
    readReturns s 0x010
      (if s.pwLen.toNat + 1 < s.totalLen.toNat then s.totalLen.toNat - s.pwLen.toNat - 1 else 0) ∧
    readReturns s 0x011 s.leadCnt.toNat ∧ readReturns s 0x012 s.magCnt.toNat ∧ readReturns s 0x013 s.pfxCnt.toNat ∧
    readReturns s 0x014 s.seqCnt.toNat ∧
    (∀ i, (h : i < 4) → readReturns s (0x020 + i) s.lead[i].toNat) ∧
    (∀ i, (h : i < 4) → readReturns s (0x024 + i) s.mag[i].toNat) ∧
    (∀ i, (h : i < 4) → readReturns s (0x028 + i) s.pfx[i].toNat) ∧
    (∀ i, (h : i < 6) → readReturns s (0x030 + i) s.seqw[i].toNat) ∧
    (∀ a, a < 256 → readReturns s (0x100 + a) (s.payload.peek a).toNat) ∧
    ∀ a, a < 2 ^ 16 → (0x015 ≤ a ∧ a < 0x020) ∨ (0x02C ≤ a ∧ a < 0x030) ∨ (0x036 ≤ a ∧ a < 0x100) ∨ 0x200 ≤ a →
      readReturns s a 0

/-- A READ repeated returns what it returned, so reads are idempotent (20_memory.md section 3). -/
def Obligations.ReadRepeatedIsReadOnce : Prop :=
  ∀ (addr : StatusAddr) (s : State), perform [.read addr, .read addr] s = perform [.read addr] s

/-! ### The window primitive and the leading code -/

/-- After any number of pushes into an empty window of at most 7 slots, the filled slots hold the last values pushed,
oldest first, the slots past the counter hold 0, and the last push says whether the window is full (41_leading_code.md
section 1; the spec marks the window's content as its own inference). -/
def Obligations.WindowHoldsTheLastValuesPushed : Prop :=
  ∀ (n : Nat) (vs : List Len), n ≤ 7 →
    let p : Pushed n := pushAll vs
    p.count.toNat = min n vs.length ∧
    p.window.toList = vs.drop (vs.length - n) ++ List.replicate (n - vs.length) 0 ∧
    (vs ≠ [] → (p.full = true ↔ n ≤ vs.length))

/-- R121 and R122: OBSERVE in phase LEAD appends while the window is not full, and then tests the last four raw lengths;
the validating OBSERVE fixes DELTA, sets LEAD_VALID and enters MAGIC. -/
def Obligations.ObserveInLeadResult : Prop :=
  ∀ (s : State) (len : Len), s.st = .lead →
    (s.leadCnt.toNat < 3 → exec (.observe len) s = .next
      { s with lead := s.lead.setIfInBounds s.leadCnt.toNat len, leadCnt := s.leadCnt + 1, evt := .fill, out := none }) ∧
    ∀ a b c x : Len, (s.leadCnt = 3 ∧ s.lead = #v[a, b, c, x]) ∨ (s.leadCnt = 4 ∧ s.lead = #v[x, a, b, c]) →
      let t := { s with lead := #v[a, b, c, len], leadCnt := 4, out := none }
      let run := b.toNat = a.toNat + 1 ∧ c.toNat = b.toNat + 1 ∧ len.toNat = c.toNat + 1
      (run → exec (.observe len) s = .next
        { t with delta := BitVec.ofNat 16 (a.toNat + 65535), leadValid := true, st := .magic, evt := .advance }) ∧
      (¬run → exec (.observe len) s = .next { t with evt := .noMatch })

/-- What 41_leading_code.md section 3 derives (the spec's own inference): the run d+1 .. d+4 from reset answers FILL,
FILL, FILL, ADVANCE with DELTA = d; and from any state of phase LEAD, after such a run the phase is no longer LEAD. -/
def Obligations.LeadingRunValidates : Prop :=
  (∀ d : Nat, d ≤ 65531 → ∃ t₁ t₂ t₃ t₄ : State,
    exec (.observe (BitVec.ofNat 16 (d + 1))) State.reset = .next t₁ ∧ t₁.evt = .fill ∧
    exec (.observe (BitVec.ofNat 16 (d + 2))) t₁ = .next t₂ ∧ t₂.evt = .fill ∧
    exec (.observe (BitVec.ofNat 16 (d + 3))) t₂ = .next t₃ ∧ t₃.evt = .fill ∧
    exec (.observe (BitVec.ofNat 16 (d + 4))) t₃ = .next t₄ ∧ t₄.evt = .advance ∧
    t₄.st = .magic ∧ t₄.delta.toNat = d ∧ t₄.leadValid = true) ∧
  ∀ (s : State) (d : Nat), s.st = .lead → s.leadCnt.toNat ≤ 4 → d ≤ 65531 →
    ∃ t, observeAll (leadLengths (BitVec.ofNat 16 d)) s = .next t ∧ t.st ≠ .lead

/-- Bits 8 .. 0 of the adjusted length are those of the integer difference between the length and the integer delta
LEAD[0] - 1 (00_scope.md section 5, the spec's own inference). -/
def Obligations.AdjustedLengthAgreesOnNineBits : Prop :=
  ∀ first len : Len, ((len - (first - 1)).toNat : Int) % 512 = ((len.toNat : Int) - ((first.toNat : Int) - 1)) % 512 ∧
    adjusted len (first - 1) = len - (first - 1)

/-! ### The header decoder -/

/-- R144: OBSERVE in phase MAGIC pushes the adjusted length; a full window whose four slots lie in the bands 0x000,
0x010, 0x020, 0x030 in order gives TOTAL_LEN and TOTAL_CRC by nibbles, a slot-0 nibble of 8 standing for 15, and with
them SEQ_Q, SEQ_R and BITMAP, and enters PREFIX. -/
def Obligations.ObserveInMagicResult : Prop :=
  ∀ (s : State) (len : Len), s.st = .magic →
    (s.magCnt.toNat < 3 → exec (.observe len) s = .next
      { s with
        mag := s.mag.setIfInBounds s.magCnt.toNat (len - s.delta)
        magCnt := s.magCnt + 1
        evt := .fill
        out := none }) ∧
    ∀ a b c x : Len, (s.magCnt = 3 ∧ s.mag = #v[a, b, c, x]) ∨ (s.magCnt = 4 ∧ s.mag = #v[x, a, b, c]) →
      let d := len - s.delta
      let t := { s with mag := #v[a, b, c, d], magCnt := 4, out := none }
      let banded := a &&& 0x01F0#16 = 0x000#16 ∧ b &&& 0x01F0#16 = 0x010#16 ∧ c &&& 0x01F0#16 = 0x020#16 ∧
        d &&& 0x01F0#16 = 0x030#16
      let hi := if a.toNat % 16 = 8 then 15 else a.toNat % 16
      let value := hi * 16 + b.toNat % 16
      (banded → exec (.observe len) s = .next
        { t with
          totalLen := BitVec.ofNat 8 value
          totalCrc := BitVec.ofNat 8 (c.toNat % 16 * 16 + d.toNat % 16)
          seqQ := BitVec.ofNat 7 ((value + 3) / 4)
          seqR := BitVec.ofNat 2 (value % 4)
          bitmap := BitVec.ofNat 64 (2 ^ ((value + 3) / 4) - 1)
          st := .prefixCode
          evt := .advance }) ∧
      (¬banded → exec (.observe len) s = .next { t with evt := .noMatch })

/-- R148: OBSERVE in phase PREFIX, with the bands 0x040, 0x050, 0x060, 0x070, gives PW_LEN and PW_CRC the same
way and enters SEQUENCE. -/
def Obligations.ObserveInPrefixResult : Prop :=
  ∀ (s : State) (len : Len), s.st = .prefixCode →
    (s.pfxCnt.toNat < 3 → exec (.observe len) s = .next
      { s with
        pfx := s.pfx.setIfInBounds s.pfxCnt.toNat (len - s.delta)
        pfxCnt := s.pfxCnt + 1
        evt := .fill
        out := none }) ∧
    ∀ a b c x : Len, (s.pfxCnt = 3 ∧ s.pfx = #v[a, b, c, x]) ∨ (s.pfxCnt = 4 ∧ s.pfx = #v[x, a, b, c]) →
      let d := len - s.delta
      let t := { s with pfx := #v[a, b, c, d], pfxCnt := 4, out := none }
      let banded := a &&& 0x01F0#16 = 0x040#16 ∧ b &&& 0x01F0#16 = 0x050#16 ∧ c &&& 0x01F0#16 = 0x060#16 ∧
        d &&& 0x01F0#16 = 0x070#16
      let hi := if a.toNat % 16 = 8 then 15 else a.toNat % 16
      (banded → exec (.observe len) s = .next
        { t with
          pwLen := BitVec.ofNat 8 (hi * 16 + b.toNat % 16)
          pwCrc := BitVec.ofNat 8 (c.toNat % 16 * 16 + d.toNat % 16)
          st := .sequence
          evt := .advance }) ∧
      (¬banded → exec (.observe len) s = .next { t with evt := .noMatch })

/-- The header round trip of 42_header_decoder.md section 4 (the spec's own inference): whatever stood in the window, the
four lengths of a header give back its value and CRC byte, but for values 0x80 .. 0x8F, read as 0xF0 .. 0xFF. -/
def Obligations.HeaderRoundTrip : Prop :=
  ∀ (s : State) (v c : Byte),
    let decoded := if v.toNat / 16 = 8 then 0xF0 + v.toNat % 16 else v.toNat
    (s.st = .magic → s.magCnt.toNat ≤ 4 →
      ∃ t, observeAll (headerLengths Config.magicBands v c s.delta) s = .next t ∧ t.st = .prefixCode ∧
        t.totalLen.toNat = decoded ∧ t.totalCrc = c) ∧
    (s.st = .prefixCode → s.pfxCnt.toNat ≤ 4 →
      ∃ t, observeAll (headerLengths Config.prefixBands v c s.delta) s = .next t ∧ t.st = .sequence ∧
        t.pwLen.toNat = decoded ∧ t.pwCrc = c)

/-! ### The sequence decoder -/

/-- R170 to R177, in R183's order: OBSERVE in phase SEQUENCE that does not accept a fragment: the first failing check
decides EVT, and only the window and EVT change. -/
def Obligations.ObserveInSequenceRejects : Prop :=
  ∀ (s : State) (len : Len),
    (s.st = .sequence → s.seqCnt.toNat < 5 → exec (.observe len) s = .next
      { s with
        seqw := s.seqw.setIfInBounds s.seqCnt.toNat (len - s.delta)
        seqCnt := s.seqCnt + 1
        evt := .fill
        out := none }) ∧
    ∀ w0 w1 w2 w3 w4 w5 : Len, sequenceWindowFull s len w0 w1 w2 w3 w4 w5 →
      let t := { s with seqw := #v[w0, w1, w2, w3, w4, w5], seqCnt := 6, out := none }
      let headerOk := w0 &&& 0x0180#16 = 0x0080#16 ∧ w1 &&& 0x0180#16 = 0x0080#16
      let idx := w1.toNat % 128
      let data := [w2, w3, w4, w5].take (fragmentSize s.seqQ.toNat s.seqR.toNat idx)
      let dataOk := ∀ v ∈ data, v &&& 0x0100#16 = 0x0100#16
      let crcOk := (crc8 (BitVec.ofNat 8 idx :: data.map fun v => BitVec.ofNat 8 v.toNat)).toNat % 128 = w0.toNat % 128
      (¬headerOk → exec (.observe len) s = .next { t with evt := .noMatch }) ∧
      (headerOk → ¬dataOk → exec (.observe len) s = .next { t with evt := .noMatch }) ∧
      (headerOk → dataOk → ¬crcOk → exec (.observe len) s = .next { t with evt := .crcFail }) ∧
      (headerOk → dataOk → crcOk → s.seqQ.toNat ≤ idx → exec (.observe len) s = .next { t with evt := .badIndex }) ∧
      (headerOk → dataOk → crcOk → idx < s.seqQ.toNat → s.bitmap.toNat / 2 ^ idx % 2 = 0 →
        exec (.observe len) s = .next { t with evt := .dup })

/-- R179 and R180: OBSERVE in phase SEQUENCE whose window passes every check writes its bytes at 4*idx, clears the
fragment's BITMAP bit, and where no bit is left enters DONE and outputs the credential; nothing else changes. No other
command or outcome enters DONE: a command after which ST or DONE says so, and before which it did not, is an OBSERVE in
SEQUENCE that ends in COMPLETE, the fragment in its window being the one whose BITMAP bit was the last one set. -/
def Obligations.ObserveInSequenceAccepts : Prop :=
  (∀ (s : State) (len w0 w1 w2 w3 w4 w5 : Len), sequenceWindowFull s len w0 w1 w2 w3 w4 w5 → s.payload.wf = true →
    let t := { s with seqw := #v[w0, w1, w2, w3, w4, w5], seqCnt := 6, out := none }
    let idx := w1.toNat % 128
    let data := [w2, w3, w4, w5].take (fragmentSize s.seqQ.toNat s.seqR.toNat idx)
    w0 &&& 0x0180#16 = 0x0080#16 → w1 &&& 0x0180#16 = 0x0080#16 → (∀ v ∈ data, v &&& 0x0100#16 = 0x0100#16) →
    (crc8 (BitVec.ofNat 8 idx :: data.map fun v => BitVec.ofNat 8 v.toNat)).toNat % 128 = w0.toNat % 128 →
    idx < s.seqQ.toNat → s.bitmap.toNat / 2 ^ idx % 2 = 1 →
    ∃ m : Memory, m.wf = true ∧
      (∀ k, (h : k < data.length) → m.peek (4 * idx + k) = BitVec.ofNat 8 data[k].toNat) ∧
      (∀ a, a < 4 * idx ∨ 4 * idx + data.length ≤ a → m.peek a = s.payload.peek a) ∧
      (s.bitmap.toNat = 2 ^ idx →
        let u := { t with payload := m, bitmap := 0, st := .done, done := true, evt := .complete }
        ∃ c, credential u = .ok c ∧ exec (.observe len) s = .next { u with out := some c }) ∧
      (s.bitmap.toNat ≠ 2 ^ idx → exec (.observe len) s = .next
        { t with payload := m, bitmap := BitVec.ofNat 64 (s.bitmap.toNat - 2 ^ idx), evt := .accept })) ∧
  ∀ (i : Instr) (s t : State), exec i s = .next t → (s.st ≠ .done ∧ t.st = .done) ∨ (s.done = false ∧ t.done = true) →
    isObserve i = true ∧ s.st = .sequence ∧ t.st = .done ∧ t.done = true ∧ t.evt = .complete ∧ t.bitmap = 0 ∧
      t.seqw[1].toNat % 128 < s.seqQ.toNat ∧ s.bitmap.toNat = 2 ^ (t.seqw[1].toNat % 128)

/-- R182: the credential view of any state: PW_LEN bytes, the nonce after them, and the SSID up to TOTAL_LEN, empty
where PW_LEN + 1 is TOTAL_LEN or more. -/
def Obligations.CredentialViewSplitsThePayload : Prop :=
  ∀ s : State, credential s = .ok
    { password := (List.range s.pwLen.toNat).map s.payload.peek
      nonce := s.payload.peek s.pwLen.toNat
      ssid := (List.range (if s.pwLen.toNat + 1 < s.totalLen.toNat then s.totalLen.toNat - s.pwLen.toNat - 1 else 0)).map
        fun k => s.payload.peek (s.pwLen.toNat + 1 + k) }

/-- With SEQ_Q = 0 no stream of commands without RESET leaves phase SEQUENCE or writes PAYLOAD or BITMAP (43_sequence.md
section 2). -/
def Obligations.ZeroFragmentsStallUntilReset : Prop :=
  ∀ (is : List Instr) (s : State), s.st = .sequence → s.seqQ = 0 → .reset ∉ is →
    ∃ t, perform is s = .next t ∧ t.st = .sequence ∧ t.seqQ = 0 ∧ t.payload = s.payload ∧ t.bitmap = s.bitmap ∧
      (s.done = false → t.done = false) ∧ (is ≠ [] → t.out = none)

/-- The fragments of a payload content f delivered in any order, each once, with any three further lengths behind them,
reassemble the payload: the decoder is in DONE and every byte below TOTAL_LEN is the content's (43_sequence.md section 3,
the spec's own inference; 70_reset_and_hazards.md section 3). -/
def Obligations.FragmentsInAnyOrderReassemble : Prop :=
  ∀ (s : State) (f : Nat → Byte) (order : List (BitVec 7)) (tail : List Len),
    s.Consistent → s.payload.wf = true → s.st = .sequence → s.seqCnt = 0 → 1 ≤ s.totalLen.toNat →
    s.bitmap.toNat = 2 ^ s.seqQ.toNat - 1 → (order.map BitVec.toNat).Perm (List.range s.seqQ.toNat) → tail.length = 3 →
    ∃ t, observeAll
        ((order.flatMap fun i => fragmentLengths i (fragmentOf f s.totalLen.toNat i.toNat) s.delta) ++ tail) s = .next t ∧
      t.st = .done ∧ t.bitmap = 0 ∧ ∀ a, a < s.totalLen.toNat → t.payload.peek a = f a

/-- The end-to-end decode: from reset, a leading code, the two headers and the fragments in any order, with any header
CRC bytes and any three further lengths, end in DONE with the credential sent, for every credential whose two lengths a
header can carry (the source's scenario S6 of 95_test_vectors.md section 0, for every credential). -/
def Obligations.EveryCarriableCredentialIsDecoded : Prop :=
  ∀ (d : Nat) (password ssid : List Byte) (nonce c₁ c₂ : Byte) (order : List (BitVec 7)) (tail : List Len),
    let payload := password ++ nonce :: ssid
    let total := payload.length
    let delta := BitVec.ofNat 16 d
    d ≤ 65531 → total ≤ 255 → total / 16 ≠ 8 → password.length / 16 ≠ 8 → tail.length = 3 →
    (order.map BitVec.toNat).Perm (List.range ((total + 3) / 4)) →
    ∃ t, observeAll
        (leadLengths delta ++ headerLengths Config.magicBands (BitVec.ofNat 8 total) c₁ delta ++
          headerLengths Config.prefixBands (BitVec.ofNat 8 password.length) c₂ delta ++
          (order.flatMap fun i => fragmentLengths i (fragmentOf (fun a => payload.getD a 0) total i.toNat) delta) ++ tail)
        State.reset = .next t ∧
      t.st = .done ∧ credential t = .ok { password := password, nonce := nonce, ssid := ssid }

/-- An OBSERVE that ends with a rejection or FILL changes only the windows, EVT and the step output: no payload byte, no
BITMAP bit, no register, no phase (43_sequence.md section 3, the spec's own inference; 60_exceptions.md R301). -/
def Obligations.RejectedObserveChangesOnlyItsWindow : Prop :=
  ∀ (s t : State) (len : Len), exec (.observe len) s = .next t →
    t.evt = .fill ∨ t.evt = .noMatch ∨ t.evt = .crcFail ∨ t.evt = .badIndex ∨ t.evt = .dup →
    t = { s with
      lead := if s.st = .lead then t.lead else s.lead
      leadCnt := if s.st = .lead then t.leadCnt else s.leadCnt
      mag := if s.st = .magic then t.mag else s.mag
      magCnt := if s.st = .magic then t.magCnt else s.magCnt
      pfx := if s.st = .prefixCode then t.pfx else s.pfx
      pfxCnt := if s.st = .prefixCode then t.pfxCnt else s.pfxCnt
      seqw := if s.st = .sequence then t.seqw else s.seqw
      seqCnt := if s.st = .sequence then t.seqCnt else s.seqCnt
      evt := t.evt
      out := none }

/-- Outside RESET a payload byte changes only with its fragment's BITMAP bit going from 1 to 0 in phase SEQUENCE, and
outside phase MAGIC no BITMAP bit goes from 0 to 1: no fragment is written twice between two RESETs (43_sequence.md
section 3, the spec's own inference). -/
def Obligations.FragmentIsWrittenOnceBetweenResets : Prop :=
  ∀ (i : Instr) (s t : State), i ≠ .reset → exec i s = .next t → s.payload.wf = true →
    (∀ a, t.payload.peek a ≠ s.payload.peek a →
      s.st = .sequence ∧ s.bitmap.getLsbD (a / 4) = true ∧ t.bitmap.getLsbD (a / 4) = false) ∧
    (s.st ≠ .magic → ∀ j, t.bitmap.getLsbD j = true → s.bitmap.getLsbD j = true)

/-! ### The provisioning FSM -/

/-- R202: OBSERVE in DONE sets EVT to IGNORED and changes nothing else. -/
def Obligations.ObserveInDoneIsIgnored : Prop :=
  ∀ (s : State) (len : Len), s.st = .done → exec (.observe len) s = .next { s with evt := .ignored, out := none }

/-- From DONE every stream of commands without RESET ends in DONE with the payload and the credential view unchanged and
nothing more output (44_control.md section 2). -/
def Obligations.CredentialStaysUntilReset : Prop :=
  ∀ (is : List Instr) (s : State), s.st = .done → .reset ∉ is →
    ∃ t, perform is s = .next t ∧ t.st = .done ∧ t.payload = s.payload ∧ credential t = credential s ∧
      (is ≠ [] → t.out = none)

/-- R22: every OBSERVE leaves ST unchanged or sets it to the next phase; no other command but RESET changes it; only RESET
sets it to LEAD from another value. -/
def Obligations.PhaseOnlyMovesForward : Prop :=
  ∀ (i : Instr) (s t : State), exec i s = .next t → i ≠ .reset →
    t.st = s.st ∨ (isObserve i = true ∧
      ((s.st = .lead ∧ t.st = .magic) ∨ (s.st = .magic ∧ t.st = .prefixCode) ∨ (s.st = .prefixCode ∧ t.st = .sequence) ∨
        (s.st = .sequence ∧ t.st = .done)))

/-- The phase transition table (44_control.md section 2, the spec's own inference): each change of ST comes from the event
its row names. -/
def Obligations.PhaseChangesOnlyOnTheTablesEvents : Prop :=
  ∀ (i : Instr) (s t : State), exec i s = .next t → t.st ≠ s.st →
    (i = .reset ∧ t.st = .lead) ∨
    (isObserve i = true ∧ s.st = .lead ∧ t.st = .magic ∧ t.leadCnt = 4 ∧ t.lead[1].toNat = t.lead[0].toNat + 1 ∧
      t.lead[2].toNat = t.lead[1].toNat + 1 ∧ t.lead[3].toNat = t.lead[2].toNat + 1) ∨
    (isObserve i = true ∧ s.st = .magic ∧ t.st = .prefixCode ∧ t.magCnt = 4 ∧ t.mag[0] &&& 0x01F0#16 = 0x000#16 ∧
      t.mag[1] &&& 0x01F0#16 = 0x010#16 ∧ t.mag[2] &&& 0x01F0#16 = 0x020#16 ∧ t.mag[3] &&& 0x01F0#16 = 0x030#16) ∨
    (isObserve i = true ∧ s.st = .prefixCode ∧ t.st = .sequence ∧ t.pfxCnt = 4 ∧ t.pfx[0] &&& 0x01F0#16 = 0x040#16 ∧
      t.pfx[1] &&& 0x01F0#16 = 0x050#16 ∧ t.pfx[2] &&& 0x01F0#16 = 0x060#16 ∧ t.pfx[3] &&& 0x01F0#16 = 0x070#16) ∨
    (isObserve i = true ∧ s.st = .sequence ∧ t.st = .done ∧ t.bitmap = 0 ∧ s.bitmap ≠ 0 ∧ t.evt = .complete)

/-- EVT after an OBSERVE tells the kind of outcome, and no command but OBSERVE and RESET writes it (10_state.md
section 6). -/
def Obligations.EvtReportsTheObserveOutcome : Prop :=
  (∀ (s t : State) (len : Len), exec (.observe len) s = .next t →
    t.evt ≠ .none ∧ (t.evt = .advance ↔ t.st ≠ s.st ∧ t.st ≠ .done) ∧
    (t.evt = .complete ↔ s.st = .sequence ∧ t.st = .done) ∧ (t.evt = .ignored ↔ s.st = .done) ∧
    (t.evt = .accept → s.st = .sequence ∧ t.st = .sequence ∧ t.bitmap ≠ 0 ∧ t.bitmap ≠ s.bitmap)) ∧
  ∀ (i : Instr) (s t : State), isObserve i = false → i ≠ .reset → exec i s = .next t → t.evt = s.evt

/-- cred_valid is 1 exactly for the OBSERVE whose EVT is COMPLETE, and cred is then the credential view of the state after
it (10_state.md section 7; how the step output is held is the model's, log 3). -/
def Obligations.CredentialIsOutputExactlyOnCompletion : Prop :=
  ∀ (i : Instr) (s t : State), exec i s = .next t →
    (t.out.isSome = true ↔ isObserve i = true ∧ t.evt = .complete) ∧ ∀ c, t.out = some c → credential t = .ok c

/-- Each element of 10_state.md is written only by the commands, and in the phases, that its rule names, RESET and illegal
words aside: ST and EVT by OBSERVE, and ST not in DONE; the windows, DELTA, LEAD_VALID, the header registers, PAYLOAD and
DONE by OBSERVE in their phase; BITMAP by OBSERVE in MAGIC and SEQUENCE; CRC_ACC by CRCCLR and CRCBYTE; RDATA by READ;
ILLEGAL by no command (10_state.md sections 2 to 7). That the presented words stay is about the model's list, log 1. -/
def Obligations.RegistersAreWrittenOnlyInTheirPhase : Prop :=
  ∀ (i : Instr) (s t : State), i ≠ .reset → exec i s = .next t →
    (isObserve i = false → t.evt = s.evt) ∧
    (s.st = .done ∨ isObserve i = false → t.st = s.st) ∧
    (s.st ≠ .lead ∨ isObserve i = false →
      t.delta = s.delta ∧ t.lead = s.lead ∧ t.leadCnt = s.leadCnt ∧ t.leadValid = s.leadValid) ∧
    (s.st ≠ .magic ∨ isObserve i = false →
      t.totalLen = s.totalLen ∧ t.totalCrc = s.totalCrc ∧ t.seqQ = s.seqQ ∧ t.seqR = s.seqR ∧ t.mag = s.mag ∧
      t.magCnt = s.magCnt) ∧
    (s.st ≠ .prefixCode ∨ isObserve i = false →
      t.pwLen = s.pwLen ∧ t.pwCrc = s.pwCrc ∧ t.pfx = s.pfx ∧ t.pfxCnt = s.pfxCnt) ∧
    (s.st ≠ .sequence ∨ isObserve i = false →
      t.seqw = s.seqw ∧ t.seqCnt = s.seqCnt ∧ t.payload = s.payload ∧ t.done = s.done) ∧
    ((s.st ≠ .magic ∧ s.st ≠ .sequence) ∨ isObserve i = false → t.bitmap = s.bitmap) ∧
    (i ≠ .crcclr → (∀ b, i ≠ .crcbyte b) → t.crcAcc = s.crcAcc) ∧
    ((∀ addr, i ≠ .read addr) → t.rdata = s.rdata) ∧
    t.illegal = s.illegal ∧ t.input = s.input

/-! ### Independence of decoding from the ports -/

/-- OBSERVE gives the same result whatever CRC_ACC, RDATA, ILLEGAL and EVT hold, and passes CRC_ACC, RDATA and ILLEGAL
through (40_crc8.md section 1, 10_state.md section 6). -/
def Obligations.ObserveIgnoresThePorts : Prop :=
  ∀ (s t : State) (len : Len) (c : Byte) (r : ReadData) (g : Bool) (e : Evt), exec (.observe len) s = .next t →
    exec (.observe len) { s with crcAcc := c, rdata := r, illegal := g, evt := e } =
      .next { t with crcAcc := c, rdata := r, illegal := g }

/-- CRC commands and READs interleaved anywhere in a stream never change what is decoded: the decoder ends as it does
without them (40_crc8.md section 1, 20_memory.md section 3). -/
def Obligations.InterleavedPortCommandsNeverChangeDecoding : Prop :=
  ∀ (is : List Instr) (s : State), ∃ t u, perform is s = .next t ∧ perform (is.filter drivesDecoder) s = .next u ∧
    t.decoderView = u.decoderView

/-! ### Invariants -/

/-- The reset state meets every invariant below. -/
def Obligations.ResetMeetsTheInvariants : Prop :=
  State.reset.Consistent ∧ State.reset.InRange ∧ State.reset.UnfilledSlotsZero ∧ State.reset.FlagsTrackPhase ∧
    State.reset.PayloadAccepted ∧ State.reset.OutputSound ∧ State.reset.payload.wf = true

/-- Every step keeps the consistency invariants of 10_state.md section 8 (the spec's own inference). -/
def Obligations.EveryStepKeepsConsistency : Prop :=
  ∀ s t : State, s.Consistent → step s = .next t → t.Consistent

/-- Every step keeps every counter and SEQ_Q in its legal range (10_state.md sections 3 to 5). -/
def Obligations.EveryStepKeepsLegalRanges : Prop :=
  ∀ s t : State, s.InRange → step s = .next t → t.InRange

/-- Every step keeps a window's slots past its counter at 0 (10_state.md section 8, the spec's own inference). -/
def Obligations.EveryStepKeepsUnfilledSlotsZero : Prop :=
  ∀ s t : State, s.UnfilledSlotsZero → step s = .next t → t.UnfilledSlotsZero

/-- Every step keeps LEAD_VALID and DONE telling the phase (10_state.md sections 3 and 6, the spec's own inference). -/
def Obligations.EveryStepKeepsFlagsTrackingPhase : Prop :=
  ∀ s t : State, s.FlagsTrackPhase → step s = .next t → t.FlagsTrackPhase

/-- Every step keeps the payload memory in its canonical form, with every address below 256 (20_memory.md section 1; the
form is the model's, log 5). -/
def Obligations.EveryStepKeepsThePayloadCanonical : Prop :=
  ∀ s t : State, s.payload.wf = true → step s = .next t → t.payload.wf = true

/-- Every step of a consistent state keeps each payload byte at 0 that lies at or past TOTAL_LEN or in a fragment not yet
accepted (44_control.md R204's corner case, 43_sequence.md section 2). -/
def Obligations.EveryStepKeepsOnlyAcceptedBytes : Prop :=
  ∀ s t : State, s.Consistent → s.payload.wf = true → s.PayloadAccepted → step s = .next t → t.PayloadAccepted

/-- Whatever a step outputs is the credential view of a state just completed (10_state.md section 7; how the step output
is held is the model's, log 3). -/
def Obligations.EveryStepOutputIsACompletedCredential : Prop :=
  ∀ s t : State, step s = .next t → t.OutputSound

/-! ### The payload memory -/

/-- Bytes written inside the buffer read back, every other byte reads as before and the canonical form is kept; an access
outside 0..255 is the model's fault (20_memory.md section 1, log 5). -/
def Obligations.PayloadReadsBackWhatIsWritten : Prop :=
  (∀ (m : Memory) (a : Nat) (bytes : List Byte), m.wf = true → a + bytes.length ≤ 256 →
    ∃ m', memWriteBytes m a bytes = .ok m' ∧ m'.wf = true ∧
      (∀ k, (h : k < bytes.length) → memRead m' (a + k) = .ok bytes[k]) ∧
      ∀ b, b < a ∨ a + bytes.length ≤ b → m'.peek b = m.peek b) ∧
  ∀ (m : Memory) (a : Nat) (v : Byte), 256 ≤ a →
    memRead m a = .error (.payloadAddress a) ∧ memWrite m a v = .error (.payloadAddress a)

/-- Two payload memories in canonical form that read alike everywhere are equal (the model's form, log 5; 20_memory.md
section 1). -/
def Obligations.EqualReadsMakeEqualPayloads : Prop :=
  ∀ m m' : Memory, m.wf = true → m'.wf = true → (∀ a, m.peek a = m'.peek a) → m = m'
end

