-- ==== Sys2Proof/Laws/Config.lean ====
section
/-! SUPPORT. The word types have the widths that 00_scope.md R8 names. -/

namespace Sys2Proof

theorem len_width : Len = BitVec Config.lenW := rfl

theorem cmdWord_width : CmdWord = BitVec Config.cmdW := rfl

theorem readData_width : ReadData = BitVec Config.rdataW := rfl

/-- BITMAP_BITS is the number of fragments of the longest payload (R8). -/
theorem bitmapBits_eq : Config.bitmapBits = (Config.maxTotalLen + 3) / Config.dataMax := rfl

/-- PAYLOAD_BYTES holds that many whole fragments (R8, R32). -/
theorem payloadBytes_eq : Config.payloadBytes = Config.bitmapBits * Config.dataMax := rfl

end Sys2Proof
end

