-- ==== Sys2Proof/Laws/Decode.lean ====
section
/-! SUPPORT. The fields of a word as numbers, and the fields of a word the encoder wrote (30_encoding.md R80). -/

namespace Sys2Proof

theorem opField_toNat (w : CmdWord) : (opField w).toNat = w.toNat / 2 ^ 28 := by
  simp [opField, Nat.shiftRight_eq_div_pow]
  omega

theorem rsvdField_toNat (w : CmdWord) : (rsvdField w).toNat = w.toNat / 2 ^ 16 % 2 ^ 12 := by
  simp [rsvdField, Nat.shiftRight_eq_div_pow]

theorem argField_toNat (w : CmdWord) : (argField w).toNat = w.toNat % 2 ^ 16 := by
  simp [argField]

theorem byteField_toNat (w : CmdWord) : (byteField w).toNat = w.toNat % 2 ^ 8 := by
  simp [byteField]

theorem byteHighField_toNat (w : CmdWord) : (byteHighField w).toNat = w.toNat / 2 ^ 8 % 2 ^ 8 := by
  simp [byteHighField, Nat.shiftRight_eq_div_pow]

theorem commandWord_toNat (op : BitVec 4) (arg : BitVec 16) :
    (commandWord op arg).toNat = op.toNat * 2 ^ 28 + arg.toNat := by
  rw [commandWord, BitVec.toNat_append, ← Nat.shiftLeft_add_eq_or_of_lt arg.isLt, BitVec.toNat_append,
    ← Nat.shiftLeft_add_eq_or_of_lt (BitVec.isLt _), Nat.shiftLeft_eq, Nat.shiftLeft_eq]
  simp
  omega

@[simp] theorem opField_commandWord (op : BitVec 4) (arg : BitVec 16) : opField (commandWord op arg) = op := by
  apply BitVec.eq_of_toNat_eq
  rw [opField_toNat, commandWord_toNat]
  omega

@[simp] theorem rsvdField_commandWord (op : BitVec 4) (arg : BitVec 16) : rsvdField (commandWord op arg) = 0 := by
  apply BitVec.eq_of_toNat_eq
  rw [rsvdField_toNat, commandWord_toNat]
  show _ = 0
  omega

@[simp] theorem argField_commandWord (op : BitVec 4) (arg : BitVec 16) : argField (commandWord op arg) = arg := by
  apply BitVec.eq_of_toNat_eq
  rw [argField_toNat, commandWord_toNat]
  omega

end Sys2Proof
end

