-- ==== Sys2Proof/Laws/Memory.lean ====
section
/-! SUPPORT. The payload memory: what a read gives after a write, the canonical form, and when an access answers. -/

namespace Sys2Proof.Machine

@[simp] theorem Memory.peek_nil (a : Nat) : Memory.peek [] a = 0 := rfl

theorem Memory.peek_cons (k a : Nat) (u : Byte) (m : Memory) :
    Memory.peek ((k, u) :: m) a = if k = a then u else m.peek a := rfl

theorem Memory.wfFrom_cons (lo k : Nat) (u : Byte) (m : Memory) :
    Memory.wfFrom lo ((k, u) :: m) = true ↔ lo ≤ k ∧ k < 256 ∧ u ≠ 0 ∧ Memory.wfFrom (k + 1) m = true := by
  simp [Memory.wfFrom, and_assoc]

/-- A canonical memory stays canonical when seen from a lower address. -/
theorem Memory.wfFrom_mono {lo hi : Nat} {m : Memory} (h : Memory.wfFrom hi m = true) (hl : lo ≤ hi) :
    Memory.wfFrom lo m = true := by
  cases m with
  | nil => rfl
  | cons c m =>
    obtain ⟨k, u⟩ := c
    rw [Memory.wfFrom_cons] at h ⊢
    exact ⟨by omega, h.2⟩

/-- Below its first address a canonical memory reads the unlisted byte. -/
theorem Memory.peek_eq_zero_of_lt {lo a : Nat} {m : Memory} (h : Memory.wfFrom lo m = true) (ha : a < lo) :
    m.peek a = 0 := by
  induction m generalizing lo with
  | nil => rfl
  | cons c m ih =>
    obtain ⟨k, u⟩ := c
    rw [Memory.wfFrom_cons] at h
    rw [Memory.peek_cons, if_neg (by omega)]
    exact ih h.2.2.2 (by omega)

/-- A canonical memory reads the unlisted byte outside the buffer. -/
theorem Memory.peek_eq_zero_of_ge {lo a : Nat} {m : Memory} (h : Memory.wfFrom lo m = true) (ha : 256 ≤ a) :
    m.peek a = 0 := by
  induction m generalizing lo with
  | nil => rfl
  | cons c m ih =>
    obtain ⟨k, u⟩ := c
    rw [Memory.wfFrom_cons] at h
    rw [Memory.peek_cons, if_neg (by omega)]
    exact ih h.2.2.2

/-- poke keeps the canonical form. -/
theorem Memory.wfFrom_poke {lo a : Nat} {m : Memory} {v : Byte} (h : Memory.wfFrom lo m = true) (hl : lo ≤ a)
    (ha : a < 256) : Memory.wfFrom lo (m.poke a v) = true := by
  induction m generalizing lo with
  | nil =>
    unfold Memory.poke
    split
    · rfl
    · exact (Memory.wfFrom_cons ..).2 ⟨hl, ha, ‹_›, rfl⟩
  | cons c m ih =>
    obtain ⟨k, u⟩ := c
    have hw := h
    rw [Memory.wfFrom_cons] at h
    unfold Memory.poke
    split
    · split
      · exact hw
      · exact (Memory.wfFrom_cons ..).2 ⟨hl, ha, ‹_›, (Memory.wfFrom_cons ..).2 ⟨by omega, h.2⟩⟩
    · split
      · split
        · exact Memory.wfFrom_mono h.2.2.2 (by omega)
        · exact (Memory.wfFrom_cons ..).2 ⟨hl, ha, ‹_›, by subst_vars; exact h.2.2.2⟩
      · exact (Memory.wfFrom_cons ..).2 ⟨h.1, h.2.1, h.2.2.1, ih h.2.2.2 (by omega)⟩

/-- poke keeps the canonical form. -/
theorem Memory.wf_poke {a : Nat} {m : Memory} {v : Byte} (h : m.wf = true) (ha : a < 256) : (m.poke a v).wf = true :=
  Memory.wfFrom_poke h (Nat.zero_le a) ha

/-- What a canonical memory reads after a poke. -/
theorem Memory.peek_poke_of_wfFrom {lo a : Nat} {m : Memory} {v : Byte} (h : Memory.wfFrom lo m = true) (b : Nat) :
    (m.poke a v).peek b = if b = a then v else m.peek b := by
  induction m generalizing lo with
  | nil =>
    unfold Memory.poke
    split
    · subst_vars; simp
    · simp only [Memory.peek_cons, eq_comm]
  | cons c m ih =>
    obtain ⟨k, u⟩ := c
    rw [Memory.wfFrom_cons] at h
    unfold Memory.poke
    split
    · split
      · subst_vars
        rw [Memory.peek_cons]
        split
        · rw [if_neg (by omega)]
        · split
          · exact Memory.peek_eq_zero_of_lt h.2.2.2 (by omega)
          · rfl
      · simp only [Memory.peek_cons, eq_comm]
    · split
      · split
        · subst_vars
          rw [Memory.peek_cons]
          split
          · subst_vars; exact Memory.peek_eq_zero_of_lt h.2.2.2 (by omega)
          · rw [if_neg (by omega)]
        · subst_vars
          simp only [Memory.peek_cons, @eq_comm _ k b]
          split <;> rfl
      · simp only [Memory.peek_cons, ih h.2.2.2]
        split
        · rw [if_neg (by omega)]
        · rfl

/-- What a canonical memory reads after a poke. -/
theorem Memory.peek_poke {a : Nat} {m : Memory} {v : Byte} (h : m.wf = true) (b : Nat) :
    (m.poke a v).peek b = if b = a then v else m.peek b := Memory.peek_poke_of_wfFrom h b

/-- MemRead answers exactly inside the buffer. -/
theorem memRead_of_lt {m : Memory} {a : Nat} (h : a < 256) : memRead m a = .ok (m.peek a) := if_pos h

/-- MemWrite answers exactly inside the buffer. -/
theorem memWrite_of_lt {m : Memory} {a : Nat} {v : Byte} (h : a < 256) : memWrite m a v = .ok (m.poke a v) := if_pos h

/-- MemWrite's answer is a poke inside the buffer. -/
theorem memWrite_ok {m m' : Memory} {a : Nat} {v : Byte} (h : memWrite m a v = .ok m') : a < 256 ∧ m' = m.poke a v := by
  unfold memWrite at h
  split at h
  · exact ⟨‹_›, (Except.ok.inj h).symm⟩
  · cases h

/-- MemWrite keeps the canonical form. -/
theorem memWrite_wf {m m' : Memory} {a : Nat} {v : Byte} (h : memWrite m a v = .ok m') (hw : m.wf = true) :
    m'.wf = true := by
  obtain ⟨ha, rfl⟩ := memWrite_ok h
  exact Memory.wf_poke hw ha

/-- A run of writes keeps the canonical form. -/
theorem memWriteBytes_wf {m m' : Memory} {a : Nat} {bytes : List Byte} (h : memWriteBytes m a bytes = .ok m')
    (hw : m.wf = true) : m'.wf = true := by
  induction bytes generalizing m a with
  | nil => cases h; exact hw
  | cons v vs ih =>
    unfold memWriteBytes at h
    split at h
    · cases h
    · exact ih h (memWrite_wf ‹_› hw)

/-- A run of writes inside the buffer answers. -/
theorem memWriteBytes_answers {m : Memory} {a : Nat} {bytes : List Byte} (h : a + bytes.length ≤ 256) :
    ∃ m', memWriteBytes m a bytes = .ok m' := by
  induction bytes generalizing m a with
  | nil => exact ⟨m, rfl⟩
  | cons v vs ih =>
    simp only [List.length_cons] at h
    unfold memWriteBytes
    rw [memWrite_of_lt (by omega)]
    exact ih (by omega)

/-- A run of reads inside the buffer answers the bytes in address order. -/
theorem memReadBytes_of_le {m : Memory} {a n : Nat} (h : a + n ≤ 256) :
    memReadBytes m a n = .ok ((List.range n).map fun k => m.peek (a + k)) := by
  induction n generalizing a with
  | zero => rfl
  | succ n ih =>
    simp only [memReadBytes, memRead_of_lt (show a < 256 by omega), ih (show a + 1 + n ≤ 256 by omega),
      List.range_succ_eq_map, List.map_cons, List.map_map, Nat.add_zero]
    congr 3
    funext k
    simp [Nat.add_assoc, Nat.add_comm 1 k]

end Sys2Proof.Machine
end

