-- ==== Sys2Proof/Laws/State.lean ====
section
/-! SUPPORT. What each named update of the state leaves in each field: one lemma per field per update. -/

namespace Sys2Proof.Machine

variable (s : State)

/-! ### withEvt -/

@[simp] theorem State.withEvt_st (e : Evt) : (s.withEvt e).st = s.st := rfl
@[simp] theorem State.withEvt_lead (e : Evt) : (s.withEvt e).lead = s.lead := rfl
@[simp] theorem State.withEvt_leadCnt (e : Evt) : (s.withEvt e).leadCnt = s.leadCnt := rfl
@[simp] theorem State.withEvt_leadValid (e : Evt) : (s.withEvt e).leadValid = s.leadValid := rfl
@[simp] theorem State.withEvt_delta (e : Evt) : (s.withEvt e).delta = s.delta := rfl
@[simp] theorem State.withEvt_mag (e : Evt) : (s.withEvt e).mag = s.mag := rfl
@[simp] theorem State.withEvt_magCnt (e : Evt) : (s.withEvt e).magCnt = s.magCnt := rfl
@[simp] theorem State.withEvt_pfx (e : Evt) : (s.withEvt e).pfx = s.pfx := rfl
@[simp] theorem State.withEvt_pfxCnt (e : Evt) : (s.withEvt e).pfxCnt = s.pfxCnt := rfl
@[simp] theorem State.withEvt_totalLen (e : Evt) : (s.withEvt e).totalLen = s.totalLen := rfl
@[simp] theorem State.withEvt_totalCrc (e : Evt) : (s.withEvt e).totalCrc = s.totalCrc := rfl
@[simp] theorem State.withEvt_pwLen (e : Evt) : (s.withEvt e).pwLen = s.pwLen := rfl
@[simp] theorem State.withEvt_pwCrc (e : Evt) : (s.withEvt e).pwCrc = s.pwCrc := rfl
@[simp] theorem State.withEvt_seqQ (e : Evt) : (s.withEvt e).seqQ = s.seqQ := rfl
@[simp] theorem State.withEvt_seqR (e : Evt) : (s.withEvt e).seqR = s.seqR := rfl
@[simp] theorem State.withEvt_seqw (e : Evt) : (s.withEvt e).seqw = s.seqw := rfl
@[simp] theorem State.withEvt_seqCnt (e : Evt) : (s.withEvt e).seqCnt = s.seqCnt := rfl
@[simp] theorem State.withEvt_bitmap (e : Evt) : (s.withEvt e).bitmap = s.bitmap := rfl
@[simp] theorem State.withEvt_payload (e : Evt) : (s.withEvt e).payload = s.payload := rfl
@[simp] theorem State.withEvt_done (e : Evt) : (s.withEvt e).done = s.done := rfl
@[simp] theorem State.withEvt_evt (e : Evt) : (s.withEvt e).evt = e := rfl
@[simp] theorem State.withEvt_illegal (e : Evt) : (s.withEvt e).illegal = s.illegal := rfl
@[simp] theorem State.withEvt_crcAcc (e : Evt) : (s.withEvt e).crcAcc = s.crcAcc := rfl
@[simp] theorem State.withEvt_rdata (e : Evt) : (s.withEvt e).rdata = s.rdata := rfl
@[simp] theorem State.withEvt_out (e : Evt) : (s.withEvt e).out = s.out := rfl
@[simp] theorem State.withEvt_input (e : Evt) : (s.withEvt e).input = s.input := rfl

/-! ### withOut -/

@[simp] theorem State.withOut_st (o : Option Credential) : (s.withOut o).st = s.st := rfl
@[simp] theorem State.withOut_lead (o : Option Credential) : (s.withOut o).lead = s.lead := rfl
@[simp] theorem State.withOut_leadCnt (o : Option Credential) : (s.withOut o).leadCnt = s.leadCnt := rfl
@[simp] theorem State.withOut_leadValid (o : Option Credential) : (s.withOut o).leadValid = s.leadValid := rfl
@[simp] theorem State.withOut_delta (o : Option Credential) : (s.withOut o).delta = s.delta := rfl
@[simp] theorem State.withOut_mag (o : Option Credential) : (s.withOut o).mag = s.mag := rfl
@[simp] theorem State.withOut_magCnt (o : Option Credential) : (s.withOut o).magCnt = s.magCnt := rfl
@[simp] theorem State.withOut_pfx (o : Option Credential) : (s.withOut o).pfx = s.pfx := rfl
@[simp] theorem State.withOut_pfxCnt (o : Option Credential) : (s.withOut o).pfxCnt = s.pfxCnt := rfl
@[simp] theorem State.withOut_totalLen (o : Option Credential) : (s.withOut o).totalLen = s.totalLen := rfl
@[simp] theorem State.withOut_totalCrc (o : Option Credential) : (s.withOut o).totalCrc = s.totalCrc := rfl
@[simp] theorem State.withOut_pwLen (o : Option Credential) : (s.withOut o).pwLen = s.pwLen := rfl
@[simp] theorem State.withOut_pwCrc (o : Option Credential) : (s.withOut o).pwCrc = s.pwCrc := rfl
@[simp] theorem State.withOut_seqQ (o : Option Credential) : (s.withOut o).seqQ = s.seqQ := rfl
@[simp] theorem State.withOut_seqR (o : Option Credential) : (s.withOut o).seqR = s.seqR := rfl
@[simp] theorem State.withOut_seqw (o : Option Credential) : (s.withOut o).seqw = s.seqw := rfl
@[simp] theorem State.withOut_seqCnt (o : Option Credential) : (s.withOut o).seqCnt = s.seqCnt := rfl
@[simp] theorem State.withOut_bitmap (o : Option Credential) : (s.withOut o).bitmap = s.bitmap := rfl
@[simp] theorem State.withOut_payload (o : Option Credential) : (s.withOut o).payload = s.payload := rfl
@[simp] theorem State.withOut_done (o : Option Credential) : (s.withOut o).done = s.done := rfl
@[simp] theorem State.withOut_evt (o : Option Credential) : (s.withOut o).evt = s.evt := rfl
@[simp] theorem State.withOut_illegal (o : Option Credential) : (s.withOut o).illegal = s.illegal := rfl
@[simp] theorem State.withOut_crcAcc (o : Option Credential) : (s.withOut o).crcAcc = s.crcAcc := rfl
@[simp] theorem State.withOut_rdata (o : Option Credential) : (s.withOut o).rdata = s.rdata := rfl
@[simp] theorem State.withOut_out (o : Option Credential) : (s.withOut o).out = o := rfl
@[simp] theorem State.withOut_input (o : Option Credential) : (s.withOut o).input = s.input := rfl

/-! ### withInput -/

@[simp] theorem State.withInput_st (ws : List CmdWord) : (s.withInput ws).st = s.st := rfl
@[simp] theorem State.withInput_lead (ws : List CmdWord) : (s.withInput ws).lead = s.lead := rfl
@[simp] theorem State.withInput_leadCnt (ws : List CmdWord) : (s.withInput ws).leadCnt = s.leadCnt := rfl
@[simp] theorem State.withInput_leadValid (ws : List CmdWord) : (s.withInput ws).leadValid = s.leadValid := rfl
@[simp] theorem State.withInput_delta (ws : List CmdWord) : (s.withInput ws).delta = s.delta := rfl
@[simp] theorem State.withInput_mag (ws : List CmdWord) : (s.withInput ws).mag = s.mag := rfl
@[simp] theorem State.withInput_magCnt (ws : List CmdWord) : (s.withInput ws).magCnt = s.magCnt := rfl
@[simp] theorem State.withInput_pfx (ws : List CmdWord) : (s.withInput ws).pfx = s.pfx := rfl
@[simp] theorem State.withInput_pfxCnt (ws : List CmdWord) : (s.withInput ws).pfxCnt = s.pfxCnt := rfl
@[simp] theorem State.withInput_totalLen (ws : List CmdWord) : (s.withInput ws).totalLen = s.totalLen := rfl
@[simp] theorem State.withInput_totalCrc (ws : List CmdWord) : (s.withInput ws).totalCrc = s.totalCrc := rfl
@[simp] theorem State.withInput_pwLen (ws : List CmdWord) : (s.withInput ws).pwLen = s.pwLen := rfl
@[simp] theorem State.withInput_pwCrc (ws : List CmdWord) : (s.withInput ws).pwCrc = s.pwCrc := rfl
@[simp] theorem State.withInput_seqQ (ws : List CmdWord) : (s.withInput ws).seqQ = s.seqQ := rfl
@[simp] theorem State.withInput_seqR (ws : List CmdWord) : (s.withInput ws).seqR = s.seqR := rfl
@[simp] theorem State.withInput_seqw (ws : List CmdWord) : (s.withInput ws).seqw = s.seqw := rfl
@[simp] theorem State.withInput_seqCnt (ws : List CmdWord) : (s.withInput ws).seqCnt = s.seqCnt := rfl
@[simp] theorem State.withInput_bitmap (ws : List CmdWord) : (s.withInput ws).bitmap = s.bitmap := rfl
@[simp] theorem State.withInput_payload (ws : List CmdWord) : (s.withInput ws).payload = s.payload := rfl
@[simp] theorem State.withInput_done (ws : List CmdWord) : (s.withInput ws).done = s.done := rfl
@[simp] theorem State.withInput_evt (ws : List CmdWord) : (s.withInput ws).evt = s.evt := rfl
@[simp] theorem State.withInput_illegal (ws : List CmdWord) : (s.withInput ws).illegal = s.illegal := rfl
@[simp] theorem State.withInput_crcAcc (ws : List CmdWord) : (s.withInput ws).crcAcc = s.crcAcc := rfl
@[simp] theorem State.withInput_rdata (ws : List CmdWord) : (s.withInput ws).rdata = s.rdata := rfl
@[simp] theorem State.withInput_out (ws : List CmdWord) : (s.withInput ws).out = s.out := rfl
@[simp] theorem State.withInput_input (ws : List CmdWord) : (s.withInput ws).input = ws := rfl

/-! ### withLead -/

@[simp] theorem State.withLead_st (p : Pushed Config.leadN) : (s.withLead p).st = s.st := rfl
@[simp] theorem State.withLead_lead (p : Pushed Config.leadN) : (s.withLead p).lead = p.window := rfl
@[simp] theorem State.withLead_leadCnt (p : Pushed Config.leadN) : (s.withLead p).leadCnt = p.count := rfl
@[simp] theorem State.withLead_leadValid (p : Pushed Config.leadN) : (s.withLead p).leadValid = s.leadValid := rfl
@[simp] theorem State.withLead_delta (p : Pushed Config.leadN) : (s.withLead p).delta = s.delta := rfl
@[simp] theorem State.withLead_mag (p : Pushed Config.leadN) : (s.withLead p).mag = s.mag := rfl
@[simp] theorem State.withLead_magCnt (p : Pushed Config.leadN) : (s.withLead p).magCnt = s.magCnt := rfl
@[simp] theorem State.withLead_pfx (p : Pushed Config.leadN) : (s.withLead p).pfx = s.pfx := rfl
@[simp] theorem State.withLead_pfxCnt (p : Pushed Config.leadN) : (s.withLead p).pfxCnt = s.pfxCnt := rfl
@[simp] theorem State.withLead_totalLen (p : Pushed Config.leadN) : (s.withLead p).totalLen = s.totalLen := rfl
@[simp] theorem State.withLead_totalCrc (p : Pushed Config.leadN) : (s.withLead p).totalCrc = s.totalCrc := rfl
@[simp] theorem State.withLead_pwLen (p : Pushed Config.leadN) : (s.withLead p).pwLen = s.pwLen := rfl
@[simp] theorem State.withLead_pwCrc (p : Pushed Config.leadN) : (s.withLead p).pwCrc = s.pwCrc := rfl
@[simp] theorem State.withLead_seqQ (p : Pushed Config.leadN) : (s.withLead p).seqQ = s.seqQ := rfl
@[simp] theorem State.withLead_seqR (p : Pushed Config.leadN) : (s.withLead p).seqR = s.seqR := rfl
@[simp] theorem State.withLead_seqw (p : Pushed Config.leadN) : (s.withLead p).seqw = s.seqw := rfl
@[simp] theorem State.withLead_seqCnt (p : Pushed Config.leadN) : (s.withLead p).seqCnt = s.seqCnt := rfl
@[simp] theorem State.withLead_bitmap (p : Pushed Config.leadN) : (s.withLead p).bitmap = s.bitmap := rfl
@[simp] theorem State.withLead_payload (p : Pushed Config.leadN) : (s.withLead p).payload = s.payload := rfl
@[simp] theorem State.withLead_done (p : Pushed Config.leadN) : (s.withLead p).done = s.done := rfl
@[simp] theorem State.withLead_evt (p : Pushed Config.leadN) : (s.withLead p).evt = s.evt := rfl
@[simp] theorem State.withLead_illegal (p : Pushed Config.leadN) : (s.withLead p).illegal = s.illegal := rfl
@[simp] theorem State.withLead_crcAcc (p : Pushed Config.leadN) : (s.withLead p).crcAcc = s.crcAcc := rfl
@[simp] theorem State.withLead_rdata (p : Pushed Config.leadN) : (s.withLead p).rdata = s.rdata := rfl
@[simp] theorem State.withLead_out (p : Pushed Config.leadN) : (s.withLead p).out = s.out := rfl
@[simp] theorem State.withLead_input (p : Pushed Config.leadN) : (s.withLead p).input = s.input := rfl

/-! ### withMag -/

@[simp] theorem State.withMag_st (p : Pushed Config.hdrN) : (s.withMag p).st = s.st := rfl
@[simp] theorem State.withMag_lead (p : Pushed Config.hdrN) : (s.withMag p).lead = s.lead := rfl
@[simp] theorem State.withMag_leadCnt (p : Pushed Config.hdrN) : (s.withMag p).leadCnt = s.leadCnt := rfl
@[simp] theorem State.withMag_leadValid (p : Pushed Config.hdrN) : (s.withMag p).leadValid = s.leadValid := rfl
@[simp] theorem State.withMag_delta (p : Pushed Config.hdrN) : (s.withMag p).delta = s.delta := rfl
@[simp] theorem State.withMag_mag (p : Pushed Config.hdrN) : (s.withMag p).mag = p.window := rfl
@[simp] theorem State.withMag_magCnt (p : Pushed Config.hdrN) : (s.withMag p).magCnt = p.count := rfl
@[simp] theorem State.withMag_pfx (p : Pushed Config.hdrN) : (s.withMag p).pfx = s.pfx := rfl
@[simp] theorem State.withMag_pfxCnt (p : Pushed Config.hdrN) : (s.withMag p).pfxCnt = s.pfxCnt := rfl
@[simp] theorem State.withMag_totalLen (p : Pushed Config.hdrN) : (s.withMag p).totalLen = s.totalLen := rfl
@[simp] theorem State.withMag_totalCrc (p : Pushed Config.hdrN) : (s.withMag p).totalCrc = s.totalCrc := rfl
@[simp] theorem State.withMag_pwLen (p : Pushed Config.hdrN) : (s.withMag p).pwLen = s.pwLen := rfl
@[simp] theorem State.withMag_pwCrc (p : Pushed Config.hdrN) : (s.withMag p).pwCrc = s.pwCrc := rfl
@[simp] theorem State.withMag_seqQ (p : Pushed Config.hdrN) : (s.withMag p).seqQ = s.seqQ := rfl
@[simp] theorem State.withMag_seqR (p : Pushed Config.hdrN) : (s.withMag p).seqR = s.seqR := rfl
@[simp] theorem State.withMag_seqw (p : Pushed Config.hdrN) : (s.withMag p).seqw = s.seqw := rfl
@[simp] theorem State.withMag_seqCnt (p : Pushed Config.hdrN) : (s.withMag p).seqCnt = s.seqCnt := rfl
@[simp] theorem State.withMag_bitmap (p : Pushed Config.hdrN) : (s.withMag p).bitmap = s.bitmap := rfl
@[simp] theorem State.withMag_payload (p : Pushed Config.hdrN) : (s.withMag p).payload = s.payload := rfl
@[simp] theorem State.withMag_done (p : Pushed Config.hdrN) : (s.withMag p).done = s.done := rfl
@[simp] theorem State.withMag_evt (p : Pushed Config.hdrN) : (s.withMag p).evt = s.evt := rfl
@[simp] theorem State.withMag_illegal (p : Pushed Config.hdrN) : (s.withMag p).illegal = s.illegal := rfl
@[simp] theorem State.withMag_crcAcc (p : Pushed Config.hdrN) : (s.withMag p).crcAcc = s.crcAcc := rfl
@[simp] theorem State.withMag_rdata (p : Pushed Config.hdrN) : (s.withMag p).rdata = s.rdata := rfl
@[simp] theorem State.withMag_out (p : Pushed Config.hdrN) : (s.withMag p).out = s.out := rfl
@[simp] theorem State.withMag_input (p : Pushed Config.hdrN) : (s.withMag p).input = s.input := rfl

/-! ### withPfx -/

@[simp] theorem State.withPfx_st (p : Pushed Config.hdrN) : (s.withPfx p).st = s.st := rfl
@[simp] theorem State.withPfx_lead (p : Pushed Config.hdrN) : (s.withPfx p).lead = s.lead := rfl
@[simp] theorem State.withPfx_leadCnt (p : Pushed Config.hdrN) : (s.withPfx p).leadCnt = s.leadCnt := rfl
@[simp] theorem State.withPfx_leadValid (p : Pushed Config.hdrN) : (s.withPfx p).leadValid = s.leadValid := rfl
@[simp] theorem State.withPfx_delta (p : Pushed Config.hdrN) : (s.withPfx p).delta = s.delta := rfl
@[simp] theorem State.withPfx_mag (p : Pushed Config.hdrN) : (s.withPfx p).mag = s.mag := rfl
@[simp] theorem State.withPfx_magCnt (p : Pushed Config.hdrN) : (s.withPfx p).magCnt = s.magCnt := rfl
@[simp] theorem State.withPfx_pfx (p : Pushed Config.hdrN) : (s.withPfx p).pfx = p.window := rfl
@[simp] theorem State.withPfx_pfxCnt (p : Pushed Config.hdrN) : (s.withPfx p).pfxCnt = p.count := rfl
@[simp] theorem State.withPfx_totalLen (p : Pushed Config.hdrN) : (s.withPfx p).totalLen = s.totalLen := rfl
@[simp] theorem State.withPfx_totalCrc (p : Pushed Config.hdrN) : (s.withPfx p).totalCrc = s.totalCrc := rfl
@[simp] theorem State.withPfx_pwLen (p : Pushed Config.hdrN) : (s.withPfx p).pwLen = s.pwLen := rfl
@[simp] theorem State.withPfx_pwCrc (p : Pushed Config.hdrN) : (s.withPfx p).pwCrc = s.pwCrc := rfl
@[simp] theorem State.withPfx_seqQ (p : Pushed Config.hdrN) : (s.withPfx p).seqQ = s.seqQ := rfl
@[simp] theorem State.withPfx_seqR (p : Pushed Config.hdrN) : (s.withPfx p).seqR = s.seqR := rfl
@[simp] theorem State.withPfx_seqw (p : Pushed Config.hdrN) : (s.withPfx p).seqw = s.seqw := rfl
@[simp] theorem State.withPfx_seqCnt (p : Pushed Config.hdrN) : (s.withPfx p).seqCnt = s.seqCnt := rfl
@[simp] theorem State.withPfx_bitmap (p : Pushed Config.hdrN) : (s.withPfx p).bitmap = s.bitmap := rfl
@[simp] theorem State.withPfx_payload (p : Pushed Config.hdrN) : (s.withPfx p).payload = s.payload := rfl
@[simp] theorem State.withPfx_done (p : Pushed Config.hdrN) : (s.withPfx p).done = s.done := rfl
@[simp] theorem State.withPfx_evt (p : Pushed Config.hdrN) : (s.withPfx p).evt = s.evt := rfl
@[simp] theorem State.withPfx_illegal (p : Pushed Config.hdrN) : (s.withPfx p).illegal = s.illegal := rfl
@[simp] theorem State.withPfx_crcAcc (p : Pushed Config.hdrN) : (s.withPfx p).crcAcc = s.crcAcc := rfl
@[simp] theorem State.withPfx_rdata (p : Pushed Config.hdrN) : (s.withPfx p).rdata = s.rdata := rfl
@[simp] theorem State.withPfx_out (p : Pushed Config.hdrN) : (s.withPfx p).out = s.out := rfl
@[simp] theorem State.withPfx_input (p : Pushed Config.hdrN) : (s.withPfx p).input = s.input := rfl

/-! ### withSeqw -/

@[simp] theorem State.withSeqw_st (p : Pushed Config.seqN) : (s.withSeqw p).st = s.st := rfl
@[simp] theorem State.withSeqw_lead (p : Pushed Config.seqN) : (s.withSeqw p).lead = s.lead := rfl
@[simp] theorem State.withSeqw_leadCnt (p : Pushed Config.seqN) : (s.withSeqw p).leadCnt = s.leadCnt := rfl
@[simp] theorem State.withSeqw_leadValid (p : Pushed Config.seqN) : (s.withSeqw p).leadValid = s.leadValid := rfl
@[simp] theorem State.withSeqw_delta (p : Pushed Config.seqN) : (s.withSeqw p).delta = s.delta := rfl
@[simp] theorem State.withSeqw_mag (p : Pushed Config.seqN) : (s.withSeqw p).mag = s.mag := rfl
@[simp] theorem State.withSeqw_magCnt (p : Pushed Config.seqN) : (s.withSeqw p).magCnt = s.magCnt := rfl
@[simp] theorem State.withSeqw_pfx (p : Pushed Config.seqN) : (s.withSeqw p).pfx = s.pfx := rfl
@[simp] theorem State.withSeqw_pfxCnt (p : Pushed Config.seqN) : (s.withSeqw p).pfxCnt = s.pfxCnt := rfl
@[simp] theorem State.withSeqw_totalLen (p : Pushed Config.seqN) : (s.withSeqw p).totalLen = s.totalLen := rfl
@[simp] theorem State.withSeqw_totalCrc (p : Pushed Config.seqN) : (s.withSeqw p).totalCrc = s.totalCrc := rfl
@[simp] theorem State.withSeqw_pwLen (p : Pushed Config.seqN) : (s.withSeqw p).pwLen = s.pwLen := rfl
@[simp] theorem State.withSeqw_pwCrc (p : Pushed Config.seqN) : (s.withSeqw p).pwCrc = s.pwCrc := rfl
@[simp] theorem State.withSeqw_seqQ (p : Pushed Config.seqN) : (s.withSeqw p).seqQ = s.seqQ := rfl
@[simp] theorem State.withSeqw_seqR (p : Pushed Config.seqN) : (s.withSeqw p).seqR = s.seqR := rfl
@[simp] theorem State.withSeqw_seqw (p : Pushed Config.seqN) : (s.withSeqw p).seqw = p.window := rfl
@[simp] theorem State.withSeqw_seqCnt (p : Pushed Config.seqN) : (s.withSeqw p).seqCnt = p.count := rfl
@[simp] theorem State.withSeqw_bitmap (p : Pushed Config.seqN) : (s.withSeqw p).bitmap = s.bitmap := rfl
@[simp] theorem State.withSeqw_payload (p : Pushed Config.seqN) : (s.withSeqw p).payload = s.payload := rfl
@[simp] theorem State.withSeqw_done (p : Pushed Config.seqN) : (s.withSeqw p).done = s.done := rfl
@[simp] theorem State.withSeqw_evt (p : Pushed Config.seqN) : (s.withSeqw p).evt = s.evt := rfl
@[simp] theorem State.withSeqw_illegal (p : Pushed Config.seqN) : (s.withSeqw p).illegal = s.illegal := rfl
@[simp] theorem State.withSeqw_crcAcc (p : Pushed Config.seqN) : (s.withSeqw p).crcAcc = s.crcAcc := rfl
@[simp] theorem State.withSeqw_rdata (p : Pushed Config.seqN) : (s.withSeqw p).rdata = s.rdata := rfl
@[simp] theorem State.withSeqw_out (p : Pushed Config.seqN) : (s.withSeqw p).out = s.out := rfl
@[simp] theorem State.withSeqw_input (p : Pushed Config.seqN) : (s.withSeqw p).input = s.input := rfl

/-! ### withPayload -/

@[simp] theorem State.withPayload_st (m : Memory) (b : BitVec 64) : (s.withPayload m b).st = s.st := rfl
@[simp] theorem State.withPayload_lead (m : Memory) (b : BitVec 64) : (s.withPayload m b).lead = s.lead := rfl
@[simp] theorem State.withPayload_leadCnt (m : Memory) (b : BitVec 64) : (s.withPayload m b).leadCnt = s.leadCnt := rfl
@[simp] theorem State.withPayload_leadValid (m : Memory) (b : BitVec 64) : (s.withPayload m b).leadValid = s.leadValid := rfl
@[simp] theorem State.withPayload_delta (m : Memory) (b : BitVec 64) : (s.withPayload m b).delta = s.delta := rfl
@[simp] theorem State.withPayload_mag (m : Memory) (b : BitVec 64) : (s.withPayload m b).mag = s.mag := rfl
@[simp] theorem State.withPayload_magCnt (m : Memory) (b : BitVec 64) : (s.withPayload m b).magCnt = s.magCnt := rfl
@[simp] theorem State.withPayload_pfx (m : Memory) (b : BitVec 64) : (s.withPayload m b).pfx = s.pfx := rfl
@[simp] theorem State.withPayload_pfxCnt (m : Memory) (b : BitVec 64) : (s.withPayload m b).pfxCnt = s.pfxCnt := rfl
@[simp] theorem State.withPayload_totalLen (m : Memory) (b : BitVec 64) : (s.withPayload m b).totalLen = s.totalLen := rfl
@[simp] theorem State.withPayload_totalCrc (m : Memory) (b : BitVec 64) : (s.withPayload m b).totalCrc = s.totalCrc := rfl
@[simp] theorem State.withPayload_pwLen (m : Memory) (b : BitVec 64) : (s.withPayload m b).pwLen = s.pwLen := rfl
@[simp] theorem State.withPayload_pwCrc (m : Memory) (b : BitVec 64) : (s.withPayload m b).pwCrc = s.pwCrc := rfl
@[simp] theorem State.withPayload_seqQ (m : Memory) (b : BitVec 64) : (s.withPayload m b).seqQ = s.seqQ := rfl
@[simp] theorem State.withPayload_seqR (m : Memory) (b : BitVec 64) : (s.withPayload m b).seqR = s.seqR := rfl
@[simp] theorem State.withPayload_seqw (m : Memory) (b : BitVec 64) : (s.withPayload m b).seqw = s.seqw := rfl
@[simp] theorem State.withPayload_seqCnt (m : Memory) (b : BitVec 64) : (s.withPayload m b).seqCnt = s.seqCnt := rfl
@[simp] theorem State.withPayload_bitmap (m : Memory) (b : BitVec 64) : (s.withPayload m b).bitmap = b := rfl
@[simp] theorem State.withPayload_payload (m : Memory) (b : BitVec 64) : (s.withPayload m b).payload = m := rfl
@[simp] theorem State.withPayload_done (m : Memory) (b : BitVec 64) : (s.withPayload m b).done = s.done := rfl
@[simp] theorem State.withPayload_evt (m : Memory) (b : BitVec 64) : (s.withPayload m b).evt = s.evt := rfl
@[simp] theorem State.withPayload_illegal (m : Memory) (b : BitVec 64) : (s.withPayload m b).illegal = s.illegal := rfl
@[simp] theorem State.withPayload_crcAcc (m : Memory) (b : BitVec 64) : (s.withPayload m b).crcAcc = s.crcAcc := rfl
@[simp] theorem State.withPayload_rdata (m : Memory) (b : BitVec 64) : (s.withPayload m b).rdata = s.rdata := rfl
@[simp] theorem State.withPayload_out (m : Memory) (b : BitVec 64) : (s.withPayload m b).out = s.out := rfl
@[simp] theorem State.withPayload_input (m : Memory) (b : BitVec 64) : (s.withPayload m b).input = s.input := rfl

/-! ### enterDone -/

@[simp] theorem State.enterDone_st : s.enterDone.st = .done := rfl
@[simp] theorem State.enterDone_lead : s.enterDone.lead = s.lead := rfl
@[simp] theorem State.enterDone_leadCnt : s.enterDone.leadCnt = s.leadCnt := rfl
@[simp] theorem State.enterDone_leadValid : s.enterDone.leadValid = s.leadValid := rfl
@[simp] theorem State.enterDone_delta : s.enterDone.delta = s.delta := rfl
@[simp] theorem State.enterDone_mag : s.enterDone.mag = s.mag := rfl
@[simp] theorem State.enterDone_magCnt : s.enterDone.magCnt = s.magCnt := rfl
@[simp] theorem State.enterDone_pfx : s.enterDone.pfx = s.pfx := rfl
@[simp] theorem State.enterDone_pfxCnt : s.enterDone.pfxCnt = s.pfxCnt := rfl
@[simp] theorem State.enterDone_totalLen : s.enterDone.totalLen = s.totalLen := rfl
@[simp] theorem State.enterDone_totalCrc : s.enterDone.totalCrc = s.totalCrc := rfl
@[simp] theorem State.enterDone_pwLen : s.enterDone.pwLen = s.pwLen := rfl
@[simp] theorem State.enterDone_pwCrc : s.enterDone.pwCrc = s.pwCrc := rfl
@[simp] theorem State.enterDone_seqQ : s.enterDone.seqQ = s.seqQ := rfl
@[simp] theorem State.enterDone_seqR : s.enterDone.seqR = s.seqR := rfl
@[simp] theorem State.enterDone_seqw : s.enterDone.seqw = s.seqw := rfl
@[simp] theorem State.enterDone_seqCnt : s.enterDone.seqCnt = s.seqCnt := rfl
@[simp] theorem State.enterDone_bitmap : s.enterDone.bitmap = s.bitmap := rfl
@[simp] theorem State.enterDone_payload : s.enterDone.payload = s.payload := rfl
@[simp] theorem State.enterDone_done : s.enterDone.done = true := rfl
@[simp] theorem State.enterDone_evt : s.enterDone.evt = s.evt := rfl
@[simp] theorem State.enterDone_illegal : s.enterDone.illegal = s.illegal := rfl
@[simp] theorem State.enterDone_crcAcc : s.enterDone.crcAcc = s.crcAcc := rfl
@[simp] theorem State.enterDone_rdata : s.enterDone.rdata = s.rdata := rfl
@[simp] theorem State.enterDone_out : s.enterDone.out = s.out := rfl
@[simp] theorem State.enterDone_input : s.enterDone.input = s.input := rfl

/-! ### withCrcAcc -/

@[simp] theorem State.withCrcAcc_st (c : Byte) : (s.withCrcAcc c).st = s.st := rfl
@[simp] theorem State.withCrcAcc_lead (c : Byte) : (s.withCrcAcc c).lead = s.lead := rfl
@[simp] theorem State.withCrcAcc_leadCnt (c : Byte) : (s.withCrcAcc c).leadCnt = s.leadCnt := rfl
@[simp] theorem State.withCrcAcc_leadValid (c : Byte) : (s.withCrcAcc c).leadValid = s.leadValid := rfl
@[simp] theorem State.withCrcAcc_delta (c : Byte) : (s.withCrcAcc c).delta = s.delta := rfl
@[simp] theorem State.withCrcAcc_mag (c : Byte) : (s.withCrcAcc c).mag = s.mag := rfl
@[simp] theorem State.withCrcAcc_magCnt (c : Byte) : (s.withCrcAcc c).magCnt = s.magCnt := rfl
@[simp] theorem State.withCrcAcc_pfx (c : Byte) : (s.withCrcAcc c).pfx = s.pfx := rfl
@[simp] theorem State.withCrcAcc_pfxCnt (c : Byte) : (s.withCrcAcc c).pfxCnt = s.pfxCnt := rfl
@[simp] theorem State.withCrcAcc_totalLen (c : Byte) : (s.withCrcAcc c).totalLen = s.totalLen := rfl
@[simp] theorem State.withCrcAcc_totalCrc (c : Byte) : (s.withCrcAcc c).totalCrc = s.totalCrc := rfl
@[simp] theorem State.withCrcAcc_pwLen (c : Byte) : (s.withCrcAcc c).pwLen = s.pwLen := rfl
@[simp] theorem State.withCrcAcc_pwCrc (c : Byte) : (s.withCrcAcc c).pwCrc = s.pwCrc := rfl
@[simp] theorem State.withCrcAcc_seqQ (c : Byte) : (s.withCrcAcc c).seqQ = s.seqQ := rfl
@[simp] theorem State.withCrcAcc_seqR (c : Byte) : (s.withCrcAcc c).seqR = s.seqR := rfl
@[simp] theorem State.withCrcAcc_seqw (c : Byte) : (s.withCrcAcc c).seqw = s.seqw := rfl
@[simp] theorem State.withCrcAcc_seqCnt (c : Byte) : (s.withCrcAcc c).seqCnt = s.seqCnt := rfl
@[simp] theorem State.withCrcAcc_bitmap (c : Byte) : (s.withCrcAcc c).bitmap = s.bitmap := rfl
@[simp] theorem State.withCrcAcc_payload (c : Byte) : (s.withCrcAcc c).payload = s.payload := rfl
@[simp] theorem State.withCrcAcc_done (c : Byte) : (s.withCrcAcc c).done = s.done := rfl
@[simp] theorem State.withCrcAcc_evt (c : Byte) : (s.withCrcAcc c).evt = s.evt := rfl
@[simp] theorem State.withCrcAcc_illegal (c : Byte) : (s.withCrcAcc c).illegal = s.illegal := rfl
@[simp] theorem State.withCrcAcc_crcAcc (c : Byte) : (s.withCrcAcc c).crcAcc = c := rfl
@[simp] theorem State.withCrcAcc_rdata (c : Byte) : (s.withCrcAcc c).rdata = s.rdata := rfl
@[simp] theorem State.withCrcAcc_out (c : Byte) : (s.withCrcAcc c).out = s.out := rfl
@[simp] theorem State.withCrcAcc_input (c : Byte) : (s.withCrcAcc c).input = s.input := rfl

/-! ### withRdata -/

@[simp] theorem State.withRdata_st (v : ReadData) : (s.withRdata v).st = s.st := rfl
@[simp] theorem State.withRdata_lead (v : ReadData) : (s.withRdata v).lead = s.lead := rfl
@[simp] theorem State.withRdata_leadCnt (v : ReadData) : (s.withRdata v).leadCnt = s.leadCnt := rfl
@[simp] theorem State.withRdata_leadValid (v : ReadData) : (s.withRdata v).leadValid = s.leadValid := rfl
@[simp] theorem State.withRdata_delta (v : ReadData) : (s.withRdata v).delta = s.delta := rfl
@[simp] theorem State.withRdata_mag (v : ReadData) : (s.withRdata v).mag = s.mag := rfl
@[simp] theorem State.withRdata_magCnt (v : ReadData) : (s.withRdata v).magCnt = s.magCnt := rfl
@[simp] theorem State.withRdata_pfx (v : ReadData) : (s.withRdata v).pfx = s.pfx := rfl
@[simp] theorem State.withRdata_pfxCnt (v : ReadData) : (s.withRdata v).pfxCnt = s.pfxCnt := rfl
@[simp] theorem State.withRdata_totalLen (v : ReadData) : (s.withRdata v).totalLen = s.totalLen := rfl
@[simp] theorem State.withRdata_totalCrc (v : ReadData) : (s.withRdata v).totalCrc = s.totalCrc := rfl
@[simp] theorem State.withRdata_pwLen (v : ReadData) : (s.withRdata v).pwLen = s.pwLen := rfl
@[simp] theorem State.withRdata_pwCrc (v : ReadData) : (s.withRdata v).pwCrc = s.pwCrc := rfl
@[simp] theorem State.withRdata_seqQ (v : ReadData) : (s.withRdata v).seqQ = s.seqQ := rfl
@[simp] theorem State.withRdata_seqR (v : ReadData) : (s.withRdata v).seqR = s.seqR := rfl
@[simp] theorem State.withRdata_seqw (v : ReadData) : (s.withRdata v).seqw = s.seqw := rfl
@[simp] theorem State.withRdata_seqCnt (v : ReadData) : (s.withRdata v).seqCnt = s.seqCnt := rfl
@[simp] theorem State.withRdata_bitmap (v : ReadData) : (s.withRdata v).bitmap = s.bitmap := rfl
@[simp] theorem State.withRdata_payload (v : ReadData) : (s.withRdata v).payload = s.payload := rfl
@[simp] theorem State.withRdata_done (v : ReadData) : (s.withRdata v).done = s.done := rfl
@[simp] theorem State.withRdata_evt (v : ReadData) : (s.withRdata v).evt = s.evt := rfl
@[simp] theorem State.withRdata_illegal (v : ReadData) : (s.withRdata v).illegal = s.illegal := rfl
@[simp] theorem State.withRdata_crcAcc (v : ReadData) : (s.withRdata v).crcAcc = s.crcAcc := rfl
@[simp] theorem State.withRdata_rdata (v : ReadData) : (s.withRdata v).rdata = v := rfl
@[simp] theorem State.withRdata_out (v : ReadData) : (s.withRdata v).out = s.out := rfl
@[simp] theorem State.withRdata_input (v : ReadData) : (s.withRdata v).input = s.input := rfl

/-! ### setIllegal -/

@[simp] theorem State.setIllegal_st : s.setIllegal.st = s.st := rfl
@[simp] theorem State.setIllegal_lead : s.setIllegal.lead = s.lead := rfl
@[simp] theorem State.setIllegal_leadCnt : s.setIllegal.leadCnt = s.leadCnt := rfl
@[simp] theorem State.setIllegal_leadValid : s.setIllegal.leadValid = s.leadValid := rfl
@[simp] theorem State.setIllegal_delta : s.setIllegal.delta = s.delta := rfl
@[simp] theorem State.setIllegal_mag : s.setIllegal.mag = s.mag := rfl
@[simp] theorem State.setIllegal_magCnt : s.setIllegal.magCnt = s.magCnt := rfl
@[simp] theorem State.setIllegal_pfx : s.setIllegal.pfx = s.pfx := rfl
@[simp] theorem State.setIllegal_pfxCnt : s.setIllegal.pfxCnt = s.pfxCnt := rfl
@[simp] theorem State.setIllegal_totalLen : s.setIllegal.totalLen = s.totalLen := rfl
@[simp] theorem State.setIllegal_totalCrc : s.setIllegal.totalCrc = s.totalCrc := rfl
@[simp] theorem State.setIllegal_pwLen : s.setIllegal.pwLen = s.pwLen := rfl
@[simp] theorem State.setIllegal_pwCrc : s.setIllegal.pwCrc = s.pwCrc := rfl
@[simp] theorem State.setIllegal_seqQ : s.setIllegal.seqQ = s.seqQ := rfl
@[simp] theorem State.setIllegal_seqR : s.setIllegal.seqR = s.seqR := rfl
@[simp] theorem State.setIllegal_seqw : s.setIllegal.seqw = s.seqw := rfl
@[simp] theorem State.setIllegal_seqCnt : s.setIllegal.seqCnt = s.seqCnt := rfl
@[simp] theorem State.setIllegal_bitmap : s.setIllegal.bitmap = s.bitmap := rfl
@[simp] theorem State.setIllegal_payload : s.setIllegal.payload = s.payload := rfl
@[simp] theorem State.setIllegal_done : s.setIllegal.done = s.done := rfl
@[simp] theorem State.setIllegal_evt : s.setIllegal.evt = s.evt := rfl
@[simp] theorem State.setIllegal_illegal : s.setIllegal.illegal = true := rfl
@[simp] theorem State.setIllegal_crcAcc : s.setIllegal.crcAcc = s.crcAcc := rfl
@[simp] theorem State.setIllegal_rdata : s.setIllegal.rdata = s.rdata := rfl
@[simp] theorem State.setIllegal_out : s.setIllegal.out = s.out := rfl
@[simp] theorem State.setIllegal_input : s.setIllegal.input = s.input := rfl

/-! ### leadSuccess -/

@[simp] theorem leadSuccess_st : (leadSuccess s).st = .magic := rfl
@[simp] theorem leadSuccess_lead : (leadSuccess s).lead = s.lead := rfl
@[simp] theorem leadSuccess_leadCnt : (leadSuccess s).leadCnt = s.leadCnt := rfl
@[simp] theorem leadSuccess_leadValid : (leadSuccess s).leadValid = true := rfl
@[simp] theorem leadSuccess_delta : (leadSuccess s).delta = s.lead[0] - 1 := rfl
@[simp] theorem leadSuccess_mag : (leadSuccess s).mag = s.mag := rfl
@[simp] theorem leadSuccess_magCnt : (leadSuccess s).magCnt = s.magCnt := rfl
@[simp] theorem leadSuccess_pfx : (leadSuccess s).pfx = s.pfx := rfl
@[simp] theorem leadSuccess_pfxCnt : (leadSuccess s).pfxCnt = s.pfxCnt := rfl
@[simp] theorem leadSuccess_totalLen : (leadSuccess s).totalLen = s.totalLen := rfl
@[simp] theorem leadSuccess_totalCrc : (leadSuccess s).totalCrc = s.totalCrc := rfl
@[simp] theorem leadSuccess_pwLen : (leadSuccess s).pwLen = s.pwLen := rfl
@[simp] theorem leadSuccess_pwCrc : (leadSuccess s).pwCrc = s.pwCrc := rfl
@[simp] theorem leadSuccess_seqQ : (leadSuccess s).seqQ = s.seqQ := rfl
@[simp] theorem leadSuccess_seqR : (leadSuccess s).seqR = s.seqR := rfl
@[simp] theorem leadSuccess_seqw : (leadSuccess s).seqw = s.seqw := rfl
@[simp] theorem leadSuccess_seqCnt : (leadSuccess s).seqCnt = s.seqCnt := rfl
@[simp] theorem leadSuccess_bitmap : (leadSuccess s).bitmap = s.bitmap := rfl
@[simp] theorem leadSuccess_payload : (leadSuccess s).payload = s.payload := rfl
@[simp] theorem leadSuccess_done : (leadSuccess s).done = s.done := rfl
@[simp] theorem leadSuccess_evt : (leadSuccess s).evt = s.evt := rfl
@[simp] theorem leadSuccess_illegal : (leadSuccess s).illegal = s.illegal := rfl
@[simp] theorem leadSuccess_crcAcc : (leadSuccess s).crcAcc = s.crcAcc := rfl
@[simp] theorem leadSuccess_rdata : (leadSuccess s).rdata = s.rdata := rfl
@[simp] theorem leadSuccess_out : (leadSuccess s).out = s.out := rfl
@[simp] theorem leadSuccess_input : (leadSuccess s).input = s.input := rfl

/-! ### magicSuccess -/

@[simp] theorem magicSuccess_st (v c : Byte) : (magicSuccess v c s).st = .prefixCode := rfl
@[simp] theorem magicSuccess_lead (v c : Byte) : (magicSuccess v c s).lead = s.lead := rfl
@[simp] theorem magicSuccess_leadCnt (v c : Byte) : (magicSuccess v c s).leadCnt = s.leadCnt := rfl
@[simp] theorem magicSuccess_leadValid (v c : Byte) : (magicSuccess v c s).leadValid = s.leadValid := rfl
@[simp] theorem magicSuccess_delta (v c : Byte) : (magicSuccess v c s).delta = s.delta := rfl
@[simp] theorem magicSuccess_mag (v c : Byte) : (magicSuccess v c s).mag = s.mag := rfl
@[simp] theorem magicSuccess_magCnt (v c : Byte) : (magicSuccess v c s).magCnt = s.magCnt := rfl
@[simp] theorem magicSuccess_pfx (v c : Byte) : (magicSuccess v c s).pfx = s.pfx := rfl
@[simp] theorem magicSuccess_pfxCnt (v c : Byte) : (magicSuccess v c s).pfxCnt = s.pfxCnt := rfl
@[simp] theorem magicSuccess_totalLen (v c : Byte) : (magicSuccess v c s).totalLen = v := rfl
@[simp] theorem magicSuccess_totalCrc (v c : Byte) : (magicSuccess v c s).totalCrc = c := rfl
@[simp] theorem magicSuccess_pwLen (v c : Byte) : (magicSuccess v c s).pwLen = s.pwLen := rfl
@[simp] theorem magicSuccess_pwCrc (v c : Byte) : (magicSuccess v c s).pwCrc = s.pwCrc := rfl
@[simp] theorem magicSuccess_seqQ (v c : Byte) : (magicSuccess v c s).seqQ = fragmentCount v := rfl
@[simp] theorem magicSuccess_seqR (v c : Byte) : (magicSuccess v c s).seqR = lastFragmentBytes v := rfl
@[simp] theorem magicSuccess_seqw (v c : Byte) : (magicSuccess v c s).seqw = s.seqw := rfl
@[simp] theorem magicSuccess_seqCnt (v c : Byte) : (magicSuccess v c s).seqCnt = s.seqCnt := rfl
@[simp] theorem magicSuccess_bitmap (v c : Byte) : (magicSuccess v c s).bitmap = fullBitmap (fragmentCount v) := rfl
@[simp] theorem magicSuccess_payload (v c : Byte) : (magicSuccess v c s).payload = s.payload := rfl
@[simp] theorem magicSuccess_done (v c : Byte) : (magicSuccess v c s).done = s.done := rfl
@[simp] theorem magicSuccess_evt (v c : Byte) : (magicSuccess v c s).evt = s.evt := rfl
@[simp] theorem magicSuccess_illegal (v c : Byte) : (magicSuccess v c s).illegal = s.illegal := rfl
@[simp] theorem magicSuccess_crcAcc (v c : Byte) : (magicSuccess v c s).crcAcc = s.crcAcc := rfl
@[simp] theorem magicSuccess_rdata (v c : Byte) : (magicSuccess v c s).rdata = s.rdata := rfl
@[simp] theorem magicSuccess_out (v c : Byte) : (magicSuccess v c s).out = s.out := rfl
@[simp] theorem magicSuccess_input (v c : Byte) : (magicSuccess v c s).input = s.input := rfl

/-! ### prefixSuccess -/

@[simp] theorem prefixSuccess_st (v c : Byte) : (prefixSuccess v c s).st = .sequence := rfl
@[simp] theorem prefixSuccess_lead (v c : Byte) : (prefixSuccess v c s).lead = s.lead := rfl
@[simp] theorem prefixSuccess_leadCnt (v c : Byte) : (prefixSuccess v c s).leadCnt = s.leadCnt := rfl
@[simp] theorem prefixSuccess_leadValid (v c : Byte) : (prefixSuccess v c s).leadValid = s.leadValid := rfl
@[simp] theorem prefixSuccess_delta (v c : Byte) : (prefixSuccess v c s).delta = s.delta := rfl
@[simp] theorem prefixSuccess_mag (v c : Byte) : (prefixSuccess v c s).mag = s.mag := rfl
@[simp] theorem prefixSuccess_magCnt (v c : Byte) : (prefixSuccess v c s).magCnt = s.magCnt := rfl
@[simp] theorem prefixSuccess_pfx (v c : Byte) : (prefixSuccess v c s).pfx = s.pfx := rfl
@[simp] theorem prefixSuccess_pfxCnt (v c : Byte) : (prefixSuccess v c s).pfxCnt = s.pfxCnt := rfl
@[simp] theorem prefixSuccess_totalLen (v c : Byte) : (prefixSuccess v c s).totalLen = s.totalLen := rfl
@[simp] theorem prefixSuccess_totalCrc (v c : Byte) : (prefixSuccess v c s).totalCrc = s.totalCrc := rfl
@[simp] theorem prefixSuccess_pwLen (v c : Byte) : (prefixSuccess v c s).pwLen = v := rfl
@[simp] theorem prefixSuccess_pwCrc (v c : Byte) : (prefixSuccess v c s).pwCrc = c := rfl
@[simp] theorem prefixSuccess_seqQ (v c : Byte) : (prefixSuccess v c s).seqQ = s.seqQ := rfl
@[simp] theorem prefixSuccess_seqR (v c : Byte) : (prefixSuccess v c s).seqR = s.seqR := rfl
@[simp] theorem prefixSuccess_seqw (v c : Byte) : (prefixSuccess v c s).seqw = s.seqw := rfl
@[simp] theorem prefixSuccess_seqCnt (v c : Byte) : (prefixSuccess v c s).seqCnt = s.seqCnt := rfl
@[simp] theorem prefixSuccess_bitmap (v c : Byte) : (prefixSuccess v c s).bitmap = s.bitmap := rfl
@[simp] theorem prefixSuccess_payload (v c : Byte) : (prefixSuccess v c s).payload = s.payload := rfl
@[simp] theorem prefixSuccess_done (v c : Byte) : (prefixSuccess v c s).done = s.done := rfl
@[simp] theorem prefixSuccess_evt (v c : Byte) : (prefixSuccess v c s).evt = s.evt := rfl
@[simp] theorem prefixSuccess_illegal (v c : Byte) : (prefixSuccess v c s).illegal = s.illegal := rfl
@[simp] theorem prefixSuccess_crcAcc (v c : Byte) : (prefixSuccess v c s).crcAcc = s.crcAcc := rfl
@[simp] theorem prefixSuccess_rdata (v c : Byte) : (prefixSuccess v c s).rdata = s.rdata := rfl
@[simp] theorem prefixSuccess_out (v c : Byte) : (prefixSuccess v c s).out = s.out := rfl
@[simp] theorem prefixSuccess_input (v c : Byte) : (prefixSuccess v c s).input = s.input := rfl

end Sys2Proof.Machine
end

