-- ==== Sys2Proof/Laws/Window.lean ====
section
/-! SUPPORT. What the window shift primitive leaves (41_leading_code.md R120). -/

namespace Sys2Proof.Machine

variable {n : Nat}

theorem shiftIn_getElem (w : Vector Len n) (v : Len) (i : Nat) (h : i < n) :
    (shiftIn w v)[i] = if h' : i + 1 < n then w[i + 1] else v := by
  simp [shiftIn]

/-- While a window has room, a push fills the slot at its counter. -/
theorem push_of_lt {w : Vector Len n} {cnt : BitVec 3} {v : Len} (h : cnt.toNat < n) :
    push w cnt v = ⟨w.set cnt.toNat v h, cnt + 1, decide ((cnt + 1).toNat = n)⟩ := dif_pos h

/-- Once a window has no room, a push shifts it. -/
theorem push_of_le {w : Vector Len n} {cnt : BitVec 3} {v : Len} (h : n ≤ cnt.toNat) :
    push w cnt v = ⟨shiftIn w v, cnt, decide (cnt.toNat = n)⟩ := dif_neg (by omega)

/-- A push says full exactly when its counter is the window's width. -/
theorem push_full (w : Vector Len n) (cnt : BitVec 3) (v : Len) :
    (push w cnt v).full = decide ((push w cnt v).count.toNat = n) := by
  unfold push
  split <;> rfl

/-- The counter after a push, for windows of at most 7 slots. -/
theorem push_count_toNat (w : Vector Len n) (cnt : BitVec 3) (v : Len) (hn : n ≤ 7) :
    (push w cnt v).count.toNat = if cnt.toNat < n then cnt.toNat + 1 else cnt.toNat := by
  by_cases h : cnt.toNat < n
  · rw [push_of_lt h, if_pos h]
    have h1 : (1 : BitVec 3).toNat = 1 := rfl
    simp only [BitVec.toNat_add]
    omega
  · rw [push_of_le (by omega), if_neg h]

/-- The slots after a push. -/
theorem push_getElem (w : Vector Len n) (cnt : BitVec 3) (v : Len) (i : Nat) (h : i < n) :
    (push w cnt v).window[i] =
      if cnt.toNat < n then (if i = cnt.toNat then v else w[i]) else if h' : i + 1 < n then w[i + 1] else v := by
  by_cases hc : cnt.toNat < n
  · rw [if_pos hc]
    simp [push_of_lt hc, Vector.getElem_set, eq_comm]
  · rw [if_neg hc]
    simp only [push_of_le (Nat.le_of_not_lt hc)]
    exact shiftIn_getElem w v i h

end Sys2Proof.Machine
end

