-- ==== Sys2Proof/Laws/Observe.lean ====
section
/-! SUPPORT. Everything an OBSERVE can do, said once for each phase; the checks on a fragment; the credential view and the
status map always answer. -/

namespace Sys2Proof.Machine

/-! ### LEAD, MAGIC and PREFIX -/

/-- The three outcomes of OBSERVE in LEAD (R121). -/
theorem observeLead_cases (len : Len) (s : State) :
    let p := push s.lead s.leadCnt len
    let t := (s.withLead p).withOut none
    (p.full = false ∧ observeLead len s = t.withEvt .fill) ∨
    (p.full = true ∧ leadValid p.window = true ∧ observeLead len s = (leadSuccess t).withEvt .advance) ∨
    (p.full = true ∧ leadValid p.window = false ∧ observeLead len s = t.withEvt .noMatch) := by
  simp only [observeLead]
  cases (push s.lead s.leadCnt len).full <;> cases leadValid (push s.lead s.leadCnt len).window <;> simp

/-- The three outcomes of OBSERVE in MAGIC (R144). -/
theorem observeMagic_cases (len : Len) (s : State) :
    let p := push s.mag s.magCnt (adjusted len s.delta)
    let t := (s.withMag p).withOut none
    (p.full = false ∧ observeMagic len s = t.withEvt .fill) ∨
    (p.full = true ∧ headerValid p.window Config.magicBands = true ∧
      observeMagic len s = (magicSuccess (headerValue p.window) (headerCrc p.window) t).withEvt .advance) ∨
    (p.full = true ∧ headerValid p.window Config.magicBands = false ∧ observeMagic len s = t.withEvt .noMatch) := by
  simp only [observeMagic]
  cases (push s.mag s.magCnt (adjusted len s.delta)).full <;>
    cases headerValid (push s.mag s.magCnt (adjusted len s.delta)).window Config.magicBands <;> simp

/-- The three outcomes of OBSERVE in PREFIX (R148). -/
theorem observePrefix_cases (len : Len) (s : State) :
    let p := push s.pfx s.pfxCnt (adjusted len s.delta)
    let t := (s.withPfx p).withOut none
    (p.full = false ∧ observePrefix len s = t.withEvt .fill) ∨
    (p.full = true ∧ headerValid p.window Config.prefixBands = true ∧
      observePrefix len s = (prefixSuccess (headerValue p.window) (headerCrc p.window) t).withEvt .advance) ∨
    (p.full = true ∧ headerValid p.window Config.prefixBands = false ∧ observePrefix len s = t.withEvt .noMatch) := by
  simp only [observePrefix]
  cases (push s.pfx s.pfxCnt (adjusted len s.delta)).full <;>
    cases headerValid (push s.pfx s.pfxCnt (adjusted len s.delta)).window Config.prefixBands <;> simp

/-! ### SEQUENCE -/

/-- A 2-bit remainder is at most 3, so a fragment has at most four data slots. -/
theorem requiredSlots_le (q : BitVec 7) (r : BitVec 2) (idx : BitVec 7) : requiredSlots q r idx ≤ 4 := by
  unfold requiredSlots
  split
  · omega
  · exact Nat.le_refl 4

theorem dataSlots_length (w : Vector Len Config.seqN) (n : Nat) (h : n ≤ 4) : (dataSlots w n).length = n := by
  simp [dataSlots]
  omega

theorem fragmentBytes_length (w : Vector Len Config.seqN) (n : Nat) (h : n ≤ 4) : (fragmentBytes w n).length = n := by
  rw [fragmentBytes, List.length_map, dataSlots_length w n h]

/-- A BITMAP bit that is set lies inside the register, so the fragment's bytes lie inside the payload (R61, R176). -/
theorem index_lt_of_bitmapBit {b : BitVec 64} {i : BitVec 7} (h : bitmapBit b i = true) : i.toNat < 64 :=
  BitVec.lt_of_getLsbD h

/-- The check that fails gives one of four events (R304). -/
theorem checkFragment_error {s : State} {e : Evt} (h : checkFragment s = .error e) :
    e = .noMatch ∨ e = .crcFail ∨ e = .badIndex ∨ e = .dup := by
  simp only [checkFragment] at h
  repeat' split at h
  all_goals first | (cases h; simp) | cases h

/-- What passing every check says (R171 to R177). -/
theorem checkFragment_ok {s : State} {f : Fragment} (h : checkFragment s = .ok f) :
    f = ⟨field7 s.seqw[1], fragmentBytes s.seqw (requiredSlots s.seqQ s.seqR (field7 s.seqw[1]))⟩ ∧
    seqHeaderOk s.seqw = true ∧ seqDataOk s.seqw (requiredSlots s.seqQ s.seqR f.index) = true ∧
    fragmentCrcOk (field7 s.seqw[0]) f.index f.bytes = true ∧ f.index.toNat < s.seqQ.toNat ∧
    bitmapBit s.bitmap f.index = true := by
  simp only [checkFragment] at h
  split at h
  · cases h
  split at h
  · cases h
  split at h
  · cases h
  split at h
  · cases h
  split at h
  · cases h
  cases h
  simp_all

/-- A fragment that passed every check has at most four bytes. -/
theorem checkFragment_bytes_length {s : State} {f : Fragment} (h : checkFragment s = .ok f) :
    f.bytes.length = requiredSlots s.seqQ s.seqR f.index := by
  rw [(checkFragment_ok h).1]
  exact fragmentBytes_length _ _ (requiredSlots_le ..)

/-- The credential view answers in every state (R182: every address is inside the buffer). -/
theorem credential_answers (s : State) : ∃ c, credential s = .ok c := by
  have hs : s.pwLen.toNat + 1 + ssidLength s ≤ 256 := by
    unfold ssidLength
    split <;> omega
  simp only [credential, credentialNonce, memReadBytes_of_le (show 0 + s.pwLen.toNat ≤ 256 by omega),
    memRead_of_lt (show s.pwLen.toNat < 256 by omega), memReadBytes_of_le hs]
  exact ⟨_, rfl⟩

/-- The two outcomes of accepting a fragment that passed every check (R179, R180). -/
theorem acceptFragment_cases {f : Fragment} {s : State} (hi : f.index.toNat < 64) (hb : f.bytes.length ≤ 4) :
    ∃ m, memWriteBytes s.payload (4 * f.index.toNat) f.bytes = .ok m ∧
      let t := s.withPayload m (clearBitmapBit s.bitmap f.index)
      (t.bitmap = 0 ∧ ∃ c, credential (t.enterDone.withEvt .complete) = .ok c ∧
        acceptFragment f s = .ok ((t.enterDone.withEvt .complete).withOut (some c))) ∨
      (t.bitmap ≠ 0 ∧ acceptFragment f s = .ok ((t.withEvt .accept).withOut none)) := by
  obtain ⟨m, hm⟩ := memWriteBytes_answers (m := s.payload) (show 4 * f.index.toNat + f.bytes.length ≤ 256 by omega)
  refine ⟨m, hm, ?_⟩
  obtain ⟨c, hc⟩ := credential_answers
    (((s.withPayload m (clearBitmapBit s.bitmap f.index)).enterDone).withEvt .complete)
  by_cases h : (s.withPayload m (clearBitmapBit s.bitmap f.index)).bitmap = 0
  · refine .inl ⟨h, c, hc, ?_⟩
    simp only [acceptFragment, hm, if_pos h, completeDecode, hc]
  · refine .inr ⟨h, ?_⟩
    simp only [acceptFragment, hm, if_neg h]

/-- The three outcomes of OBSERVE in SEQUENCE (R183). -/
theorem observeSequence_cases (len : Len) (s : State) :
    let p := push s.seqw s.seqCnt (adjusted len s.delta)
    let t := (s.withSeqw p).withOut none
    (p.full = false ∧ observeSequence len s = .ok (t.withEvt .fill)) ∨
    (p.full = true ∧ ∃ e, checkFragment t = .error e ∧ observeSequence len s = .ok (t.withEvt e)) ∨
    (p.full = true ∧ ∃ f, checkFragment t = .ok f ∧ observeSequence len s = acceptFragment f t) := by
  simp only [observeSequence]
  cases h : (push s.seqw s.seqCnt (adjusted len s.delta)).full
  · simp
  · cases hc : checkFragment ((s.withSeqw (push s.seqw s.seqCnt (adjusted len s.delta))).withOut none) <;> simp

/-! ### READ -/

/-- The status map answers at every address in every state (R42). -/
theorem statusMap_answers (s : State) (addr : StatusAddr) : ∃ v, statusMap s addr = .ok v := by
  unfold statusMap
  split
  · exact ⟨_, rfl⟩
  · rename_i loc _
    cases loc with
    | credNonce =>
      simp only [statusValue, credentialNonce, memRead_of_lt (show s.pwLen.toNat < 256 by omega)]
      exact ⟨_, rfl⟩
    | payload a =>
      simp only [statusValue, memRead_of_lt a.isLt]
      exact ⟨_, rfl⟩
    | _ => exact ⟨_, rfl⟩

/-- READ writes RDATA with the status map's answer. -/
theorem execRead_of_ok {s : State} {addr : StatusAddr} {v : ReadData} (h : statusMap s addr = .ok v) :
    execRead addr s = .next ((s.withRdata v).withOut none) := by
  rw [execRead, h]
  rfl

end Sys2Proof.Machine
end

