-- ==== Sys2Proof/Laws/PerInstr.lean ====
section
/-! SUPPORT. Facts about every command as syntax, one lemma per constructor (30_encoding.md R80, R83). -/

namespace Sys2Proof.Laws

/-- The operand types hold every operand to its field's range (R83). -/
def WellFormed.Statement (i : Instr) : Prop := i.wellFormed = true

theorem WellFormed.observe (len : Len) : WellFormed.Statement (.observe len) := by
  simp [WellFormed.Statement, Instr.wellFormed]
  omega

theorem WellFormed.reset : WellFormed.Statement .reset := rfl

theorem WellFormed.crcclr : WellFormed.Statement .crcclr := rfl

theorem WellFormed.crcbyte (b : Byte) : WellFormed.Statement (.crcbyte b) := by
  simp [WellFormed.Statement, Instr.wellFormed]
  omega

theorem WellFormed.read (addr : StatusAddr) : WellFormed.Statement (.read addr) := by
  simp [WellFormed.Statement, Instr.wellFormed]
  omega

/-- The encoder writes R80's format: RSVD is zero and OP is one of 0x1 .. 0x5. -/
def FormatFields.Statement (i : Instr) : Prop :=
  rsvdField (encode i) = 0 ∧ 1 ≤ (opField (encode i)).toNat ∧ (opField (encode i)).toNat ≤ 5

theorem FormatFields.observe (len : Len) : FormatFields.Statement (.observe len) := by
  simp [FormatFields.Statement, encode]

theorem FormatFields.reset : FormatFields.Statement .reset := by
  simp [FormatFields.Statement, encode]

theorem FormatFields.crcclr : FormatFields.Statement .crcclr := by
  simp [FormatFields.Statement, encode]

theorem FormatFields.crcbyte (b : Byte) : FormatFields.Statement (.crcbyte b) := by
  simp [FormatFields.Statement, encode]

theorem FormatFields.read (addr : StatusAddr) : FormatFields.Statement (.read addr) := by
  simp [FormatFields.Statement, encode]

end Sys2Proof.Laws
end

