-- ==== Sys2Proof/Laws/Step.lean ====
section
/-! SUPPORT. Everything a step can do, said once, and exec for each command. -/

namespace Sys2Proof.Machine

/-- A step waits, performs the command its word decodes to, or flags an illegal word. -/
theorem step_cases (s : State) :
    (s.input = [] ∧ step s = .next (idle s)) ∨
    (∃ w ws i, s.input = w :: ws ∧ decode w = .ok i ∧ step s = exec i (s.withInput ws)) ∨
    (∃ w ws e, s.input = w :: ws ∧ decode w = .error e ∧ step s = .next (takeIllegal (s.withInput ws))) := by
  cases h : s.input with
  | nil => exact .inl ⟨rfl, by simp only [step, takeCommand, h]⟩
  | cons w ws =>
    cases hd : decode w with
    | ok i => exact .inr (.inl ⟨w, ws, i, rfl, hd, by simp only [step, takeCommand, h, hd]⟩)
    | error e => exact .inr (.inr ⟨w, ws, e, rfl, hd, by simp only [step, takeCommand, h, hd]⟩)

theorem exec_observe (len : Len) (s : State) :
    exec (.observe len) s =
      match s.st with
      | .lead => .next (observeLead len s)
      | .magic => .next (observeMagic len s)
      | .prefixCode => .next (observePrefix len s)
      | .sequence => outcome (observeSequence len s)
      | .done => .next (observeDone s) := rfl

theorem exec_observe_lead {len : Len} {s : State} (h : s.st = .lead) :
    exec (.observe len) s = .next (observeLead len s) := by rw [exec_observe, h]

theorem exec_observe_magic {len : Len} {s : State} (h : s.st = .magic) :
    exec (.observe len) s = .next (observeMagic len s) := by rw [exec_observe, h]

theorem exec_observe_prefix {len : Len} {s : State} (h : s.st = .prefixCode) :
    exec (.observe len) s = .next (observePrefix len s) := by rw [exec_observe, h]

theorem exec_observe_sequence {len : Len} {s : State} (h : s.st = .sequence) :
    exec (.observe len) s = outcome (observeSequence len s) := by rw [exec_observe, h]

theorem exec_observe_done {len : Len} {s : State} (h : s.st = .done) :
    exec (.observe len) s = .next (observeDone s) := by rw [exec_observe, h]

theorem exec_reset (s : State) : exec .reset s = .next (State.reset.withInput s.input) := rfl

theorem exec_crcclr (s : State) : exec .crcclr s = .next ((s.withCrcAcc 0x00#8).withOut none) := rfl

theorem exec_crcbyte (b : Byte) (s : State) :
    exec (.crcbyte b) s = .next ((s.withCrcAcc (crc8Update s.crcAcc b)).withOut none) := rfl

/-- READ always answers, with the status map's value in RDATA. -/
theorem exec_read (addr : StatusAddr) (s : State) :
    ∃ v, statusMap s addr = .ok v ∧ exec (.read addr) s = .next ((s.withRdata v).withOut none) := by
  obtain ⟨v, h⟩ := statusMap_answers s addr
  exact ⟨v, h, execRead_of_ok h⟩

end Sys2Proof.Machine
end

