-- ==== Sys2Proof/Tests/Slice0.lean ====
section
/-! SUPPORT. The model's own tests: decode words written out from 30_encoding.md, one-step vectors of 95_test_vectors.md,
and for each statement with hypotheses a concrete instance that meets them. -/

namespace Sys2Proof.Tests

open Sys2Proof Sys2Proof.Machine

/-- A field of the next state, none where there is none. -/
def after (o : Host.Outcome State Fault Refusal) {α : Type} (f : State → α) : Option α :=
  match o with
  | .next s => some (f s)
  | .fault _ => none
  | .refused _ => none

theorem next_of_after {o : Host.Outcome State Fault Refusal} {t : State} (h : after o id = some t) : o = .next t := by
  cases o with
  | next s => exact congrArg _ (Option.some.inj h)
  | fault f => cases h
  | refused r => cases h

/-- Phase LEAD with the given window. -/
def inLead (w : Vector Len 4) (cnt : BitVec 3) : State := { State.reset with lead := w, leadCnt := cnt }

/-- Phase MAGIC with the given window, DELTA = 40. -/
def inMagic (w : Vector Len 4) (cnt : BitVec 3) : State :=
  { State.reset with st := .magic, leadCnt := 4, leadValid := true, delta := 40, mag := w, magCnt := cnt }

/-- Phase PREFIX with the given window, DELTA = 40. -/
def inPrefix (w : Vector Len 4) (cnt : BitVec 3) : State :=
  { State.reset with
    st := .prefixCode, leadCnt := 4, leadValid := true, delta := 40, magCnt := 4, totalLen := 15, seqQ := 4, seqR := 3
    bitmap := 0xF, pfx := w, pfxCnt := cnt }

/-- The start of 95_test_vectors.md section 3: TOTAL_LEN 8, PW_LEN 3, SEQ_Q 2, SEQ_R 0, DELTA 0, with the given BITMAP and
window. -/
def inSequence (bitmap : BitVec 64) (w : Vector Len 6) (cnt : BitVec 3) : State :=
  { State.reset with
    st := .sequence, leadCnt := 4, leadValid := true, magCnt := 4, pfxCnt := 4, totalLen := 8, pwLen := 3, seqQ := 2
    bitmap := bitmap, seqw := w, seqCnt := cnt }

/-- The start of SEQ-7: TOTAL_LEN 10, SEQ_Q 3, SEQ_R 2. -/
def inSequenceShort (w : Vector Len 6) (cnt : BitVec 3) : State :=
  { inSequence 0b111 w cnt with totalLen := 10, seqQ := 3, seqR := 2 }

/-- Phase DONE. -/
def inDone : State := { inSequence 0 #v[0, 0, 0, 0, 0, 0] 6 with st := .done, done := true }

/-! ### Well-formedness: an ill-formed line for each check (R87, R88) -/

theorem test_wf_observe_refused : (AsmLine.observe 65536).wellFormed = false := by decide
theorem test_wf_crcbyte_refused : (AsmLine.crcbyte 256).wellFormed = false := by decide
theorem test_wf_read_refused : (AsmLine.read 65536).wellFormed = false := by decide
theorem test_wf_lead_refused : (AsmLine.leadCode 65532).wellFormed = false := by decide
theorem test_wf_magic_value_refused : (AsmLine.magicCode 256 0 0).wellFormed = false := by decide
theorem test_wf_magic_crc_refused : (AsmLine.magicCode 0 256 0).wellFormed = false := by decide
theorem test_wf_prefix_value_refused : (AsmLine.prefixCode 256 0 0).wellFormed = false := by decide
theorem test_wf_prefix_crc_refused : (AsmLine.prefixCode 0 256 0).wellFormed = false := by decide
theorem test_wf_frag_index_refused : (AsmLine.frag 128 [0] 0).wellFormed = false := by decide
theorem test_wf_frag_empty_refused : (AsmLine.frag 0 [] 0).wellFormed = false := by decide
theorem test_wf_frag_long_refused : (AsmLine.frag 0 [0, 1, 2, 3, 4] 0).wellFormed = false := by decide
theorem test_wf_frag_byte_refused : (AsmLine.frag 0 [256] 0).wellFormed = false := by decide
theorem test_wf_frag_accepted : (AsmLine.frag 127 [0, 255] 70000).wellFormed = true := by decide
theorem test_wf_instr_all : [Instr.observe 0xFFFF#16, .reset, .crcclr, .crcbyte 0xFF#8, .read 0xFFFF#16].all
    Instr.wellFormed = true := by decide

/-! ### Decoding: OP, RSVD and ARG written out bit by bit (R80, R82) -/

theorem test_decode_observe_281 :
    decode 0b00010000000000000000000100011001#32 = .ok (.observe 281#16) := by decide
theorem test_decode_reset : decode 0b00100000000000000000000000000000#32 = .ok .reset := by decide
theorem test_decode_crcclr : decode 0b00110000000000000000000000000000#32 = .ok .crcclr := by decide
theorem test_decode_crcbyte_31 : decode 0b01000000000000000000000000110001#32 = .ok (.crcbyte 0x31#8) := by decide
theorem test_decode_read_108 : decode 0b01010000000000000000000100001000#32 = .ok (.read 0x108#16) := by decide
theorem test_decode_rsvd_illegal : decode 0b00010000000000010000000000000000#32 = .error .reserved := by decide
theorem test_decode_op0_illegal : decode 0b00000000000000000000000000000000#32 = .error .opcode := by decide
theorem test_decode_op6_illegal : decode 0b01100000000000000000000000000000#32 = .error .opcode := by decide
theorem test_decode_op15_illegal : decode 0b11110000000000000000000000000000#32 = .error .opcode := by decide
theorem test_decode_reset_arg_illegal : decode 0b00100000000000000000000000000001#32 = .error .operand := by decide
theorem test_decode_crcclr_arg_illegal : decode 0b00110000000000000000000100000000#32 = .error .operand := by decide
theorem test_decode_crcbyte_high_illegal : decode 0b01000000000000000000000100000000#32 = .error .byteHigh := by decide
theorem test_decodeTableWord_read : decodeTableWord 32 0x5000000E = some (.read 0x00E#16) := by decide
theorem test_encode_crcbyte : encode (.crcbyte 0x5A#8) = 0x4000005A#32 := by decide

/-! ### One step: at most two for each command (95_test_vectors.md) -/

/-- SEQ-7: a short last fragment of two bytes, slots 4 and 5 not examined. -/
theorem test_observe_seq7 : after (exec (.observe 0x7FF#16) (inSequenceShort #v[0x82, 0x82, 0x130, 0x131, 0, 0] 5))
    (fun s => (s.evt, s.bitmap, s.payload)) = some (.accept, 0b011#64, [(8, 0x30#8), (9, 0x31#8)]) := by decide +kernel

/-- LEAD-3: the run 0, 1, 2, 3 gives DELTA = 0xFFFF. -/
theorem test_observe_lead3 : after (exec (.observe 3#16) (inLead #v[0, 1, 2, 0] 3))
    (fun s => (s.evt, s.st, s.delta, s.leadValid)) = some (.advance, .magic, 0xFFFF#16, true) := by decide

/-- CTL-13: RESET out of SEQUENCE. -/
theorem test_reset_ctl13 : after (exec .reset (inSequence 0b10 #v[1, 2, 3, 4, 5, 6] 6))
    (fun s => (s.st, s.bitmap, s.evt, s.seqw[5])) = some (.lead, 0, .none, 0) := by decide

/-- CRCCMD-1. -/
theorem test_crcclr_crccmd1 : after (exec .crcclr { State.reset with crcAcc := 0x5E }) State.crcAcc = some 0 := by decide

/-- CRCCMD-3. -/
theorem test_crcbyte_crccmd3 :
    after (exec (.crcbyte 0x32#8) { State.reset with crcAcc := 0xE0 }) State.crcAcc = some 0xEB#8 := by decide

/-- CTL-11: FLAGS with ILLEGAL = 1. -/
theorem test_read_ctl11 :
    after (exec (.read 0x002#16) { State.reset with illegal := true }) State.rdata = some 0x0004#16 := by decide

/-- SEQ-1's first acceptance, then READ of PAYLOAD[5]. -/
theorem test_read_payload : after (exec (.read 0x105#16) { inDone with payload := [(4, 0x77#8), (5, 0x78#8)] })
    State.rdata = some 0x0078#16 := by decide

/-- CTL-3: an illegal word with OP = 0x1 shifts no window. -/
theorem test_illegal_ctl3 : after (step { inLead #v[1, 2, 0, 0] 2 with input := [0x10010000#32] })
    (fun s => (s.illegal, s.leadCnt, s.evt)) = some (true, 2#3, .none) := by decide

/-- The host's stored word is the next command performed. -/
theorem test_withFetchWord : after (step (State.reset.withFetchWord 32 0x40000001)) State.crcAcc = some 0x5E#8 := by decide

/-- 30_encoding.md R87: a line of text with a comment. -/
theorem test_text_crcbyte : assembleTextLine "crcbyte 0x5A ; nonce".toList = some [0x4000005A#32] := by decide

/-! ### Instances of the statements' hypotheses -/

theorem witness_DecodeOfEncodeIsTheCommand : (Instr.read 0xFFFF#16).wellFormed = true := by decide

theorem witness_EncodeOfDecodeIsTheWord : decode 0x1000FFFF#32 = .ok (.observe 0xFFFF#16) := by decide

/-- Each of R84's cases at a boundary: OP 0, 6 and 15; RSVD 1 and 0x800; ARG 1; ARG[15:8] 1; and words that are legal. -/
theorem witness_IllegalWordsAreExactlyThoseOfTheRule :
    (0x00000000#32).toNat / 2 ^ 28 = 0 ∧ 6 ≤ (0x60000000#32).toNat / 2 ^ 28 ∧ 6 ≤ (0xF0000000#32).toNat / 2 ^ 28 ∧
    (0x10010000#32).toNat / 2 ^ 16 % 2 ^ 12 ≠ 0 ∧ (0x18000000#32).toNat / 2 ^ 16 % 2 ^ 12 ≠ 0 ∧
    (0x20000001#32).toNat / 2 ^ 28 = 2 ∧ (0x20000001#32).toNat % 2 ^ 16 ≠ 0 ∧
    (0x30000001#32).toNat / 2 ^ 28 = 3 ∧ (0x30000001#32).toNat % 2 ^ 16 ≠ 0 ∧
    (0x40000100#32).toNat / 2 ^ 28 = 4 ∧ (0x40000100#32).toNat % 2 ^ 16 / 2 ^ 8 ≠ 0 ∧
    ({ State.reset with input := [0x20000001#32] } : State).input = 0x20000001#32 :: [] ∧
    (decode 0x10000000#32).isOk ∧ (decode 0x20000000#32).isOk ∧ (decode 0x30000000#32).isOk ∧
    (decode 0x400000FF#32).isOk ∧ (decode 0x5000FFFF#32).isOk := by decide

theorem witness_OperandsAreTheFieldsOfArg :
    decode 0x1000FFFF#32 = .ok (.observe 0xFFFF#16) ∧ decode 0x400000FF#32 = .ok (.crcbyte 0xFF#8) ∧
    decode 0x50000200#32 = .ok (.read 0x200#16) ∧ 65535 < 2 ^ 16 ∧ 255 < 2 ^ 8 := by decide

theorem witness_StepPerformsTheDecodedCommand :
    ({ State.reset with input := [0x30000000#32, 0#32] } : State).input = 0x30000000#32 :: [0#32] ∧
    decode 0x30000000#32 = .ok .crcclr := by decide

theorem witness_StepWaitsWithoutACommand : State.reset.input = [] := by decide

theorem witness_CrcclrClearsTheAccumulator :
    (0x30010000#32).toNat / 2 ^ 28 = 3 ∧ 0x30010000#32 ≠ 0x30000000#32 ∧ (0x3FFFFFFF#32).toNat / 2 ^ 28 = 3 := by decide

/-- ARG[15:8] = 1 and 0xFF, and RSVD at its least and its greatest. -/
theorem witness_CrcbyteUpdatesTheAccumulator :
    ((0x40000100#32).toNat / 2 ^ 28 = 4 ∧ (0x40000100#32).toNat % 2 ^ 16 / 2 ^ 8 ≠ 0) ∧
    (0x4FFFFFFF#32).toNat / 2 ^ 28 = 4 ∧ (0x4FFFFFFF#32).toNat % 2 ^ 16 / 2 ^ 8 ≠ 0 := by decide

theorem witness_IllegalCrcbyteWordLeavesTheAccumulator : (1#8 : Byte) ≠ 0 ∧
    ({ State.reset with input := [0x40000100#32] } : State).input = (0x4000#16 ++ 1#8 ++ 0#8) :: [] := by decide

/-- Each phase and each event, and each address clause at its boundaries, has an instance. -/
theorem witness_ReadReturnsTheStatusMap :
    State.reset.st = .lead ∧ (inMagic #v[0, 0, 0, 0] 0).st = .magic ∧ (inPrefix #v[0, 0, 0, 0] 0).st = .prefixCode ∧
    (inSequence 0 #v[0, 0, 0, 0, 0, 0] 0).st = .sequence ∧ inDone.st = .done ∧
    ([Evt.none, .fill, .noMatch, .advance, .crcFail, .badIndex, .dup, .accept, .complete, .ignored].all fun e =>
      (State.reset.withEvt e).evt == e) = true ∧
    readReturns inDone 0x000 4 ∧ readReturns inDone 0x014 6 ∧ readReturns inDone 0x015 0 ∧ readReturns inDone 0x01F 0 ∧
    readReturns (inLead #v[7, 0, 0, 9] 4) 0x020 7 ∧ readReturns (inLead #v[7, 0, 0, 9] 4) 0x023 9 ∧
    readReturns (inMagic #v[7, 0, 0, 9] 4) 0x024 7 ∧ readReturns (inPrefix #v[7, 0, 0, 9] 4) 0x02B 9 ∧
    readReturns inDone 0x02C 0 ∧ readReturns (inSequence 1 #v[5, 0, 0, 0, 0, 6] 6) 0x035 6 ∧ readReturns inDone 0x036 0 ∧
    readReturns { inDone with payload := [(0, 1#8)] } 0x100 1 ∧ readReturns { inDone with payload := [(255, 2#8)] } 0x1FF 2 ∧
    readReturns inDone 0x200 0 := by
  refine ⟨by decide, by decide, by decide, by decide, by decide, by decide, rfl, rfl, rfl, rfl, rfl, rfl, rfl, rfl, rfl,
    rfl, rfl, rfl, rfl, rfl⟩

theorem witness_WindowHoldsTheLastValuesPushed : 7 ≤ 7 ∧ (6 : Nat) ≤ 7 ∧ ([1, 2, 3] : List Len) ≠ [] ∧
    (pushAll [1, 2, 3, 4, 5] : Pushed 4).window.toList = [2, 3, 4, 5] ∧
    (pushAll [1, 2] : Pushed 4).window.toList = [1, 2, 0, 0] := by decide

theorem witness_ObserveInLeadResult :
    ((inLead #v[1, 2, 0, 0] 2).st = .lead ∧ (inLead #v[1, 2, 0, 0] 2).leadCnt.toNat < 3) ∧
    ((inLead #v[1, 2, 3, 0] 3).leadCnt = 3 ∧ (inLead #v[1, 2, 3, 0] 3).lead = #v[1, 2, 3, 0]) ∧
    ((inLead #v[9, 1, 2, 3] 4).leadCnt = 4 ∧ (inLead #v[9, 1, 2, 3] 4).lead = #v[9, 1, 2, 3]) ∧
    ((2 : Len).toNat = (1 : Len).toNat + 1 ∧ (3 : Len).toNat = (2 : Len).toNat + 1 ∧
      (4 : Len).toNat = (3 : Len).toNat + 1) ∧
    ¬(0x0000#16).toNat = (0xFFFF#16).toNat + 1 := by decide

theorem witness_LeadingRunValidates : (65531 : Nat) ≤ 65531 ∧ (inLead #v[9, 1, 2, 3] 4).st = .lead ∧
    (inLead #v[9, 1, 2, 3] 4).leadCnt.toNat ≤ 4 := by decide

/-- HDR-11's slots lie in the bands; HDR-13's do not. -/
theorem witness_ObserveInMagicResult :
    ((inMagic #v[1, 2, 0, 0] 2).st = .magic ∧ (inMagic #v[1, 2, 0, 0] 2).magCnt.toNat < 3) ∧
    ((inMagic #v[0x203, 0x211, 0x220, 0] 3).magCnt = 3 ∧
      (inMagic #v[0x203, 0x211, 0x220, 0] 3).mag = #v[0x203, 0x211, 0x220, 0]) ∧
    ((inMagic #v[9, 0x10, 0, 0x20] 4).magCnt = 4 ∧ (inMagic #v[9, 0x10, 0, 0x20] 4).mag = #v[9, 0x10, 0, 0x20]) ∧
    (0x203#16 &&& 0x01F0#16 = 0x000#16 ∧ 0x211#16 &&& 0x01F0#16 = 0x010#16 ∧ 0x220#16 &&& 0x01F0#16 = 0x020#16 ∧
      (0x230#16 + 40#16) - (inMagic #v[0x203, 0x211, 0x220, 0] 3).delta &&& 0x01F0#16 = 0x030#16) ∧
    ¬0x10#16 &&& 0x01F0#16 = 0x000#16 := by decide

theorem witness_ObserveInPrefixResult :
    ((inPrefix #v[1, 2, 0, 0] 2).st = .prefixCode ∧ (inPrefix #v[1, 2, 0, 0] 2).pfxCnt.toNat < 3) ∧
    ((inPrefix #v[0x40, 0x58, 0x6C, 0] 3).pfxCnt = 3 ∧
      (inPrefix #v[0x40, 0x58, 0x6C, 0] 3).pfx = #v[0x40, 0x58, 0x6C, 0]) ∧
    ((inPrefix #v[9, 0x50, 0x40, 0x60] 4).pfxCnt = 4 ∧
      (inPrefix #v[9, 0x50, 0x40, 0x60] 4).pfx = #v[9, 0x50, 0x40, 0x60]) ∧
    (0x40#16 &&& 0x01F0#16 = 0x040#16 ∧ 0x58#16 &&& 0x01F0#16 = 0x050#16 ∧ 0x6C#16 &&& 0x01F0#16 = 0x060#16 ∧
      154#16 - (inPrefix #v[0x40, 0x58, 0x6C, 0] 3).delta &&& 0x01F0#16 = 0x070#16) ∧
    ¬0x50#16 &&& 0x01F0#16 = 0x040#16 := by decide

theorem witness_HeaderRoundTrip :
    ((inMagic #v[1, 2, 3, 4] 4).st = .magic ∧ (inMagic #v[1, 2, 3, 4] 4).magCnt.toNat ≤ 4) ∧
    ((inPrefix #v[1, 2, 3, 4] 4).st = .prefixCode ∧ (inPrefix #v[1, 2, 3, 4] 4).pfxCnt.toNat ≤ 4) ∧
    (0x80#8).toNat / 16 = 8 ∧ (0x8F#8).toNat / 16 = 8 ∧ ¬(0x7F#8).toNat / 16 = 8 ∧ ¬(0x90#8).toNat / 16 = 8 := by decide

/-- A window with 4 slots filled; windows of 5 and of 6 slots that the push completes. -/
theorem witness_sequenceWindowFull :
    (inSequence 3 #v[1, 2, 3, 4, 0, 0] 4).seqCnt.toNat < 5 ∧
    sequenceWindowFull (inSequence 3 #v[0xF9, 0x80, 0x161, 0x162, 0x163, 0] 5) 0x107 0xF9 0x80 0x161 0x162 0x163 0x107 ∧
    sequenceWindowFull (inSequence 3 #v[7, 0xF9, 0x80, 0x161, 0x162, 0x163] 6) 0x107 0xF9 0x80 0x161 0x162 0x163 0x107 :=
  ⟨by decide, ⟨rfl, by decide, .inl ⟨rfl, 0, rfl⟩⟩, ⟨rfl, by decide, .inr ⟨rfl, 7, rfl⟩⟩⟩

/-- An instance of each rejection of R183, in its order: SEQ-5, SEQ-6, SEQ-2, SEQ-3 and a replay of fragment 0. -/
theorem witness_ObserveInSequenceRejects :
    (¬(0x79#16 &&& 0x0180#16 = 0x0080#16)) ∧
    (¬(0x062#16 &&& 0x0100#16 = 0x0100#16)) ∧
    (¬(crc8 [0x00, 0x61, 0x62, 0x63, 0x07]).toNat % 128 = (0xF8#16).toNat % 128) ∧
    ((crc8 [0x02, 0x51, 0x52, 0x53, 0x54]).toNat % 128 = (0xF8#16).toNat % 128 ∧
      (inSequence 3 #v[0, 0, 0, 0, 0, 0] 6).seqQ.toNat ≤ 2) ∧
    ((crc8 [0x00, 0x61, 0x62, 0x63, 0x07]).toNat % 128 = (0xF9#16).toNat % 128 ∧
      0 < (inSequence 2 #v[0, 0, 0, 0, 0, 0] 6).seqQ.toNat ∧
      (inSequence 2 #v[0, 0, 0, 0, 0, 0] 6).bitmap.toNat / 2 ^ 0 % 2 = 0) := by
  refine ⟨by decide, by decide, ?_, ?_, ?_⟩ <;> decide +kernel

/-- SEQ-1's fragment 0, with another fragment missing and as the last one missing. -/
theorem witness_ObserveInSequenceAccepts :
    (inSequence 3 #v[0xF9, 0x80, 0x161, 0x162, 0x163, 0] 5).payload.wf = true ∧ 0xF9#16 &&& 0x0180#16 = 0x0080#16 ∧
    0x80#16 &&& 0x0180#16 = 0x0080#16 ∧
    (∀ v ∈ ([0x161, 0x162, 0x163, 0x107] : List Len), v &&& 0x0100#16 = 0x0100#16) ∧
    (crc8 [0x00, 0x61, 0x62, 0x63, 0x07]).toNat % 128 = (0xF9#16).toNat % 128 ∧
    fragmentSize 2 0 0 = 4 ∧ (0 : Nat) < 2 ∧ (3 : Nat) / 2 ^ 0 % 2 = 1 ∧ (3 : Nat) ≠ 2 ^ 0 ∧ (1 : Nat) = 2 ^ 0 := by
  refine ⟨by decide, by decide, by decide, by simp, ?_, by decide, by decide, by decide, by decide, by decide⟩
  decide +kernel

/-- The clause on entering DONE: the completing OBSERVE of SEQ-1's fragment 0, as the last one missing. -/
theorem witness_ObserveInSequenceAccepts_entersDone : ∃ t,
    exec (.observe 0x107) (inSequence 1 #v[0xF9, 0x80, 0x161, 0x162, 0x163, 0] 5) = .next t ∧
    (inSequence 1 #v[0xF9, 0x80, 0x161, 0x162, 0x163, 0] 5).st ≠ .done ∧ t.st = .done ∧
    (inSequence 1 #v[0xF9, 0x80, 0x161, 0x162, 0x163, 0] 5).done = false ∧ t.done = true :=
  ⟨{ inSequence 0 #v[0xF9, 0x80, 0x161, 0x162, 0x163, 0x107] 6 with
      payload := [(0, 0x61#8), (1, 0x62#8), (2, 0x63#8), (3, 0x07#8)], st := .done, done := true, evt := .complete
      out := some ⟨[0x61, 0x62, 0x63], 0x07, [0, 0, 0, 0]⟩ },
    next_of_after (by decide +kernel), by decide, by decide, by decide, by decide⟩

theorem witness_ZeroFragmentsStallUntilReset :
    ({ inSequence 0 #v[0, 0, 0, 0, 0, 0] 0 with totalLen := 0, seqQ := 0 } : State).st = .sequence ∧
    ({ inSequence 0 #v[0, 0, 0, 0, 0, 0] 0 with totalLen := 0, seqQ := 0 } : State).seqQ = 0 ∧
    Instr.reset ∉ [Instr.observe 0xFE, .read 0, .crcclr] := by decide

theorem witness_FragmentsInAnyOrderReassemble :
    (inSequence 3 #v[0, 0, 0, 0, 0, 0] 0).Consistent ∧ (inSequence 3 #v[0, 0, 0, 0, 0, 0] 0).payload.wf = true ∧
    (inSequence 3 #v[0, 0, 0, 0, 0, 0] 0).st = .sequence ∧ (inSequence 3 #v[0, 0, 0, 0, 0, 0] 0).seqCnt = 0 ∧
    1 ≤ (inSequence 3 #v[0, 0, 0, 0, 0, 0] 0).totalLen.toNat ∧
    (inSequence 3 #v[0, 0, 0, 0, 0, 0] 0).bitmap.toNat = 2 ^ (inSequence 3 #v[0, 0, 0, 0, 0, 0] 0).seqQ.toNat - 1 ∧
    (([1, 0] : List (BitVec 7)).map BitVec.toNat).Perm
      (List.range (inSequence 3 #v[0, 0, 0, 0, 0, 0] 0).seqQ.toNat) ∧
    ([0, 0, 0] : List Len).length = 3 := by
  refine ⟨⟨?_, ?_, ?_, ?_, ?_, ?_, ?_, ?_⟩, ?_⟩ <;> decide

theorem witness_EveryCarriableCredentialIsDecoded :
    (65531 : Nat) ≤ 65531 ∧ (([0x70] : List Byte) ++ 0x09 :: [0x61, 0x62]).length ≤ 255 ∧
    (([0x70] : List Byte) ++ 0x09 :: [0x61, 0x62]).length / 16 ≠ 8 ∧ ([0x70] : List Byte).length / 16 ≠ 8 ∧
    ([0, 0, 0] : List Len).length = 3 ∧
    (([0] : List (BitVec 7)).map BitVec.toNat).Perm
      (List.range (((([0x70] : List Byte) ++ 0x09 :: [0x61, 0x62]).length + 3) / 4)) := by decide

/-- A FILL in each phase that has a window, and a rejection. -/
theorem witness_RejectedObserveChangesOnlyItsWindow : ∃ t u v w,
    exec (.observe 9) (inLead #v[0, 0, 0, 0] 0) = .next t ∧ t.evt = .fill ∧
    exec (.observe 9) (inMagic #v[0, 0, 0, 0] 4) = .next u ∧ u.evt = .noMatch ∧
    exec (.observe 9) (inPrefix #v[0, 0, 0, 0] 0) = .next v ∧ v.evt = .fill ∧
    exec (.observe 9) (inSequence 3 #v[0, 0, 0, 0, 0, 0] 6) = .next w ∧ w.evt = .noMatch :=
  ⟨_, _, _, _, rfl, rfl, rfl, rfl, rfl, rfl, rfl, rfl⟩

/-- Also the hypotheses of PhaseOnlyMovesForward, EvtReportsTheObserveOutcome, CredentialIsOutputExactlyOnCompletion,
RegistersAreWrittenOnlyInTheirPhase and ObserveIgnoresThePorts: a command that is no RESET answers a next state. -/
theorem witness_FragmentIsWrittenOnceBetweenResets : ∃ t, Instr.observe 0x7FF#16 ≠ .reset ∧
    exec (.observe 0x7FF#16) (inSequenceShort #v[0x82, 0x82, 0x130, 0x131, 0, 0] 5) = .next t ∧
    (inSequenceShort #v[0x82, 0x82, 0x130, 0x131, 0, 0] 5).payload.wf = true ∧
    (inSequenceShort #v[0x82, 0x82, 0x130, 0x131, 0, 0] 5).st ≠ .magic ∧ t.payload.peek 8 = 0x30#8 ∧
    t.bitmap.getLsbD 0 = true :=
  ⟨{ inSequenceShort #v[0x82, 0x82, 0x130, 0x131, 0, 0x7FF] 6 with
      payload := [(8, 0x30#8), (9, 0x31#8)], bitmap := 0b011, evt := .accept },
    by decide, next_of_after (by decide +kernel), by decide, by decide, by decide, by decide⟩

theorem witness_EvtReportsTheObserveOutcome : ∃ t, isObserve (.read 1) = false ∧ Instr.read 1 ≠ .reset ∧
    exec (.read 1) inDone = .next t := ⟨_, by decide, by decide, rfl⟩

theorem witness_ObserveInDoneIsIgnored : inDone.st = .done := by decide

theorem witness_CredentialStaysUntilReset :
    inDone.st = .done ∧ Instr.reset ∉ [Instr.observe 5, .read 0, .crcbyte 1] := by decide

theorem witness_PhaseChangesOnlyOnTheTablesEvents : ∃ t u,
    exec (.observe 3) (inLead #v[0, 1, 2, 0] 3) = .next t ∧ t.st ≠ (inLead #v[0, 1, 2, 0] 3).st ∧
    exec .reset inDone = .next u ∧ u.st ≠ inDone.st :=
  ⟨_, _, rfl, by decide, rfl, by decide⟩

theorem witness_PhaseOnlyMovesForward : ∃ t, exec (.observe 3) (inLead #v[0, 1, 2, 0] 3) = .next t ∧
    Instr.observe 3 ≠ .reset := ⟨_, rfl, by decide⟩

/-- Each clause of the statement, by an OBSERVE in another phase, in DONE, or by a command that is no OBSERVE. -/
theorem witness_RegistersAreWrittenOnlyInTheirPhase : ∃ t, Instr.observe 9 ≠ .reset ∧
    exec (.observe 9) (inMagic #v[0, 0, 0, 0] 4) = .next t ∧
    ((inMagic #v[0, 0, 0, 0] 4).st ≠ .lead ∨ isObserve (.observe 9) = false) ∧ isObserve (.crcbyte 9) = false ∧
    inDone.st = .done ∧ (inPrefix #v[0, 0, 0, 0] 0).st ≠ .magic ∧ (inPrefix #v[0, 0, 0, 0] 0).st ≠ .sequence ∧
    Instr.observe 9 ≠ .crcclr :=
  ⟨_, by decide, rfl, by decide, by decide, by decide, by decide, by decide, by decide⟩

theorem witness_ObserveIgnoresThePorts : ∃ t, exec (.observe 9) (inPrefix #v[0, 0, 0, 0] 0) = .next t := ⟨_, rfl⟩

/-- A completing OBSERVE: fragment 0 of SEQ-1 as the last one missing, with the credential output. -/
theorem witness_CredentialIsOutputExactlyOnCompletion :
    after (exec (.observe 0x107) (inSequence 1 #v[0xF9, 0x80, 0x161, 0x162, 0x163, 0] 5))
      (fun t => (t.evt, t.out.map Credential.password, t.st)) = some (.complete, some [0x61, 0x62, 0x63], .done) := by
  decide +kernel

/-- The invariants hold of a state in SEQUENCE with a command presented, and the step answers. -/
theorem witness_invariants_step : ∃ s t : State, s.Consistent ∧ s.InRange ∧ s.UnfilledSlotsZero ∧ s.FlagsTrackPhase ∧
    s.PayloadAccepted ∧ s.payload.wf = true ∧ s.st = .sequence ∧ step s = .next t := by
  refine ⟨{ inSequence 3 #v[0, 0, 0, 0, 0, 0] 0 with input := [0x100000F9#32] }, _, ⟨?_, ?_, ?_, ?_, ?_, ?_, ?_, ?_⟩,
    ⟨?_, ?_, ?_, ?_, ?_⟩, ⟨?_, ?_, ?_, ?_⟩, ⟨?_, ?_⟩, ⟨fun _ => rfl, fun a h => absurd rfl h⟩, ?_, ?_, rfl⟩ <;> decide

theorem witness_PayloadReadsBackWhatIsWritten : Memory.wf [(3, 5#8)] = true ∧ 254 + [1#8, 0#8].length ≤ 256 ∧
    (0 : Nat) < [1#8, 0#8].length ∧ 256 ≤ 256 := by decide

theorem witness_EqualReadsMakeEqualPayloads : Memory.wf [(3, 5#8), (255, 1#8)] = true ∧ Memory.wf [] = true := by decide

end Sys2Proof.Tests
end

/-! The statements of 10_state.md: the phase moves forward only (R22), and READ returns the status map (R42). -/

namespace Sys2Proof.Machine

/-! ### The order of the phases (R21, R22) -/

theorem Phase.following_eq_some_iff (p q : Phase) :
    p.following = some q ↔
      (p = .lead ∧ q = .magic) ∨ (p = .magic ∧ q = .prefixCode) ∨ (p = .prefixCode ∧ q = .sequence) ∨
        (p = .sequence ∧ q = .done) := by
  cases p <;> simp [Phase.following, eq_comm]

theorem observeLead_st (len : Len) (s : State) : (observeLead len s).st = s.st ∨ (observeLead len s).st = .magic := by
  obtain ⟨-, h⟩ | ⟨-, -, h⟩ | ⟨-, -, h⟩ := observeLead_cases len s <;> simp [h]

theorem observeMagic_st (len : Len) (s : State) :
    (observeMagic len s).st = s.st ∨ (observeMagic len s).st = .prefixCode := by
  obtain ⟨-, h⟩ | ⟨-, -, h⟩ | ⟨-, -, h⟩ := observeMagic_cases len s <;> simp [h]

theorem observePrefix_st (len : Len) (s : State) :
    (observePrefix len s).st = s.st ∨ (observePrefix len s).st = .sequence := by
  obtain ⟨-, h⟩ | ⟨-, -, h⟩ | ⟨-, -, h⟩ := observePrefix_cases len s <;> simp [h]

/-- OBSERVE in SEQUENCE always answers, in the same phase or in DONE (R178, R180). -/
theorem observeSequence_st (len : Len) (s : State) :
    ∃ t, observeSequence len s = .ok t ∧ (t.st = s.st ∨ t.st = .done) := by
  obtain ⟨-, h⟩ | ⟨-, e, -, h⟩ | ⟨-, f, hf, h⟩ := observeSequence_cases len s
  · exact ⟨_, h, .inl rfl⟩
  · exact ⟨_, h, .inl rfl⟩
  · obtain ⟨-, -, -, -, -, hbit⟩ := checkFragment_ok hf
    have hlen : f.bytes.length ≤ 4 := checkFragment_bytes_length hf ▸ requiredSlots_le ..
    obtain ⟨m, -, ⟨-, c, -, ha⟩ | ⟨-, ha⟩⟩ := acceptFragment_cases (index_lt_of_bitmapBit hbit) hlen
    · exact ⟨_, h.trans ha, .inr (by simp)⟩
    · exact ⟨_, h.trans ha, .inl (by simp)⟩

/-- OBSERVE always answers, in the same phase or in the one that follows it (R22). -/
theorem exec_observe_st (len : Len) (s : State) :
    ∃ t, exec (.observe len) s = .next t ∧ (t.st = s.st ∨ s.st.following = some t.st) := by
  cases hs : s.st with
  | lead => exact ⟨_, exec_observe_lead hs, by simpa [hs, Phase.following, eq_comm] using observeLead_st len s⟩
  | magic => exact ⟨_, exec_observe_magic hs, by simpa [hs, Phase.following, eq_comm] using observeMagic_st len s⟩
  | prefixCode => exact ⟨_, exec_observe_prefix hs, by simpa [hs, Phase.following, eq_comm] using observePrefix_st len s⟩
  | sequence =>
    obtain ⟨t, ht, hst⟩ := observeSequence_st len s
    exact ⟨t, by rw [exec_observe_sequence hs, ht, outcome], by simpa [hs, Phase.following, eq_comm] using hst⟩
  | done => exact ⟨_, exec_observe_done hs, .inl hs⟩

/-- A command that does not drive the decoder (CRCCLR, CRCBYTE, READ) leaves ST (R103, R104, R204). -/
theorem exec_st_of_not_drivesDecoder {i : Instr} {s t : State} (hi : drivesDecoder i = false)
    (h : exec i s = .next t) : t.st = s.st := by
  cases i with
  | observe => cases hi
  | reset => cases hi
  | crcclr => rw [exec_crcclr] at h; cases h; rfl
  | crcbyte b => rw [exec_crcbyte] at h; cases h; rfl
  | read addr =>
    obtain ⟨v, -, hv⟩ := exec_read addr s
    rw [hv] at h; cases h; rfl

/-- Settles O37: the phase an OBSERVE leaves, and the commands that leave the decoder alone. -/
theorem phaseOnlyMovesForward : Obligations.PhaseOnlyMovesForward := by
  intro i s t h hi
  cases i with
  | observe len =>
    obtain ⟨u, hu, hst⟩ := exec_observe_st len s
    obtain rfl : u = t := Host.Outcome.next.inj (hu.symm.trans h)
    exact hst.imp_right fun hf => ⟨rfl, (Phase.following_eq_some_iff _ _).1 hf⟩
  | reset => exact absurd rfl hi
  | crcclr => exact .inl (exec_st_of_not_drivesDecoder rfl h)
  | crcbyte b => exact .inl (exec_st_of_not_drivesDecoder rfl h)
  | read addr => exact .inl (exec_st_of_not_drivesDecoder rfl h)

/-! ### The locations of the status map (R42) -/

theorem statusLoc_bitmap : ∀ i, (h : i < 4) → statusLoc (BitVec.ofNat 16 (0x00A + i)) = some (.bitmap ⟨i, h⟩) := by decide

theorem statusLoc_lead : ∀ i, (h : i < 4) → statusLoc (BitVec.ofNat 16 (0x020 + i)) = some (.lead ⟨i, h⟩) := by decide

theorem statusLoc_mag : ∀ i, (h : i < 4) → statusLoc (BitVec.ofNat 16 (0x024 + i)) = some (.mag ⟨i, h⟩) := by decide

theorem statusLoc_pfx : ∀ i, (h : i < 4) → statusLoc (BitVec.ofNat 16 (0x028 + i)) = some (.pfx ⟨i, h⟩) := by decide

theorem statusLoc_seqw : ∀ i, (h : i < 6) → statusLoc (BitVec.ofNat 16 (0x030 + i)) = some (.seqw ⟨i, h⟩) := by decide

theorem statusLoc_payload (a : Nat) (h : a < 256) :
    statusLoc (BitVec.ofNat 16 (0x100 + a)) = some (.payload ⟨a, h⟩) := by
  have ha : (BitVec.ofNat 16 (0x100 + a)).toNat = 0x100 + a := Nat.mod_eq_of_lt (by omega)
  simp only [statusLoc, ha]
  rw [if_neg (by omega), dif_neg (by omega), dif_neg (by omega), dif_neg (by omega), dif_neg (by omega),
    dif_pos (by omega)]
  simp

/-- The gaps of the address map, and everything past the payload, name no location. -/
theorem statusLoc_unlisted {a : Nat} (h : a < 2 ^ 16)
    (hgap : (0x015 ≤ a ∧ a < 0x020) ∨ (0x02C ≤ a ∧ a < 0x030) ∨ (0x036 ≤ a ∧ a < 0x100) ∨ 0x200 ≤ a) :
    statusLoc (BitVec.ofNat 16 a) = none := by
  have ha : (BitVec.ofNat 16 a).toNat = a := Nat.mod_eq_of_lt h
  simp only [statusLoc, ha]
  rw [if_neg (by omega), dif_neg (by omega), dif_neg (by omega), dif_neg (by omega), dif_neg (by omega),
    dif_neg (by omega)]

/-! ### The values of the status map, as numbers (R42, R64) -/

/-- The number at a location; `statusValue_eq` ties it to the model's value. -/
def statusNumber (s : State) : StatusLoc → Nat
  | .state => s.st.code.toNat
  | .evt => s.evt.code.toNat
  | .flags => s.done.toNat + 2 * s.leadValid.toNat + 4 * s.illegal.toNat
  | .delta => s.delta.toNat
  | .totalLen => s.totalLen.toNat
  | .totalCrc => s.totalCrc.toNat
  | .pwLen => s.pwLen.toNat
  | .pwCrc => s.pwCrc.toNat
  | .seqQ => s.seqQ.toNat
  | .seqR => s.seqR.toNat
  | .bitmap i => s.bitmap.toNat / 2 ^ (16 * i.val) % 2 ^ 16
  | .crcAcc => s.crcAcc.toNat
  | .credNonce => (s.payload.peek s.pwLen.toNat).toNat
  | .credSsidLen => ssidLength s
  | .leadCnt => s.leadCnt.toNat
  | .magCnt => s.magCnt.toNat
  | .pfxCnt => s.pfxCnt.toNat
  | .seqCnt => s.seqCnt.toNat
  | .lead i => s.lead[i.val].toNat
  | .mag i => s.mag[i.val].toNat
  | .pfx i => s.pfx[i.val].toNat
  | .seqw i => s.seqw[i.val].toNat
  | .payload a => (s.payload.peek a.val).toNat

theorem flagsWord_eq (s : State) :
    flagsWord s = BitVec.ofNat 16 (s.done.toNat + 2 * s.leadValid.toNat + 4 * s.illegal.toNat) := by
  unfold flagsWord
  cases s.done <;> cases s.leadValid <;> cases s.illegal <;> rfl

theorem extractLsb'_sixteen_eq (b : BitVec 64) (k : Nat) :
    b.extractLsb' k 16 = BitVec.ofNat 16 (b.toNat / 2 ^ k % 2 ^ 16) := by
  apply BitVec.eq_of_toNat_eq
  simp [Nat.shiftRight_eq_div_pow]

/-- The status map holds at every location its number, zero-extended to 16 bits. -/
theorem statusValue_eq (s : State) (loc : StatusLoc) :
    statusValue s loc = .ok (BitVec.ofNat 16 (statusNumber s loc)) := by
  cases loc with
  | flags => exact congrArg Except.ok (flagsWord_eq s)
  | bitmap i => exact congrArg Except.ok (extractLsb'_sixteen_eq s.bitmap (16 * i.val))
  | credNonce =>
    simp [statusValue, statusNumber, credentialNonce, memRead_of_lt (show s.pwLen.toNat < 256 by omega), Except.map]
  | payload a => simp [statusValue, statusNumber, memRead_of_lt a.isLt, Except.map]
  | _ => simp [statusValue, statusNumber]

/-! ### READ (R204) -/

theorem readReturns_of_statusMap {s : State} {addr v : Nat}
    (h : statusMap s (BitVec.ofNat 16 addr) = .ok (BitVec.ofNat 16 v)) : readReturns s addr v :=
  execRead_of_ok h

theorem readReturns_of_statusLoc (s : State) {addr : Nat} {loc : StatusLoc}
    (h : statusLoc (BitVec.ofNat 16 addr) = some loc) : readReturns s addr (statusNumber s loc) :=
  readReturns_of_statusMap (by simp only [statusMap, h, statusValue_eq])

theorem readReturns_zero_of_statusLoc_none (s : State) {addr : Nat} (h : statusLoc (BitVec.ofNat 16 addr) = none) :
    readReturns s addr 0 :=
  readReturns_of_statusMap (by simp only [statusMap, h]; rfl)

theorem readReturns_phase {s : State} {p : Phase} (h : s.st = p) : readReturns s 0x000 p.code.toNat :=
  h ▸ readReturns_of_statusLoc s (loc := .state) rfl

theorem readReturns_evt {s : State} {e : Evt} (h : s.evt = e) : readReturns s 0x001 e.code.toNat :=
  h ▸ readReturns_of_statusLoc s (loc := .evt) rfl

/-- Settles O18: each address of the map names its location, and READ returns the number there. -/
theorem readReturnsTheStatusMap : Obligations.ReadReturnsTheStatusMap := by
  intro s
  have read := @readReturns_of_statusLoc s
  refine ⟨⟨readReturns_phase, readReturns_phase, readReturns_phase, readReturns_phase, readReturns_phase⟩,
    ⟨readReturns_evt, readReturns_evt, readReturns_evt, readReturns_evt, readReturns_evt, readReturns_evt,
      readReturns_evt, readReturns_evt, readReturns_evt, readReturns_evt⟩,
    read (loc := .flags) rfl, read (loc := .delta) rfl, read (loc := .totalLen) rfl, read (loc := .totalCrc) rfl,
    read (loc := .pwLen) rfl, read (loc := .pwCrc) rfl, read (loc := .seqQ) rfl, read (loc := .seqR) rfl,
    fun i h => read (statusLoc_bitmap i h), read (loc := .crcAcc) rfl, read (loc := .credNonce) rfl,
    read (loc := .credSsidLen) rfl, read (loc := .leadCnt) rfl, read (loc := .magCnt) rfl, read (loc := .pfxCnt) rfl,
    read (loc := .seqCnt) rfl, fun i h => read (statusLoc_lead i h), fun i h => read (statusLoc_mag i h),
    fun i h => read (statusLoc_pfx i h), fun i h => read (statusLoc_seqw i h), fun a h => read (statusLoc_payload a h),
    fun a h hgap => readReturns_zero_of_statusLoc_none s (statusLoc_unlisted h hgap)⟩

end Sys2Proof.Machine

/-! The statements of 30_encoding.md: the operands of a command are the plain fields of ARG (R83). -/

namespace Sys2Proof

/-- A word that decodes has RSVD zero, OP the command's code, and the command's operands in ARG (R82, R83). -/
theorem decode_ok_cases {w : CmdWord} {i : Instr} (h : decode w = .ok i) :
    rsvdField w = 0 ∧
      ((opField w = 0x1#4 ∧ i = .observe (argField w)) ∨
        (opField w = 0x2#4 ∧ argField w = 0 ∧ i = .reset) ∨
        (opField w = 0x3#4 ∧ argField w = 0 ∧ i = .crcclr) ∨
        (opField w = 0x4#4 ∧ byteHighField w = 0 ∧ i = .crcbyte (byteField w)) ∨
        (opField w = 0x5#4 ∧ i = .read (argField w))) := by
  unfold decode at h
  split_ifs at h with hrsvd hobserve hreset harg hcrcclr harg hcrcbyte hhigh hread <;> cases h
  all_goals refine ⟨not_not.1 hrsvd, ?_⟩
  · exact .inl ⟨hobserve, rfl⟩
  · exact .inr (.inl ⟨hreset, harg, rfl⟩)
  · exact .inr (.inr (.inl ⟨hcrcclr, harg, rfl⟩))
  · exact .inr (.inr (.inr (.inl ⟨hcrcbyte, hhigh, rfl⟩)))
  · exact .inr (.inr (.inr (.inr ⟨hread, rfl⟩)))

theorem fields_of_decode_observe {w : CmdWord} {len : Len} (h : decode w = .ok (.observe len)) :
    opField w = 0x1#4 ∧ len = argField w := by
  simpa using (decode_ok_cases h).2

theorem fields_of_decode_crcbyte {w : CmdWord} {b : Byte} (h : decode w = .ok (.crcbyte b)) :
    opField w = 0x4#4 ∧ byteHighField w = 0 ∧ b = byteField w := by
  simpa using (decode_ok_cases h).2

theorem fields_of_decode_read {w : CmdWord} {addr : StatusAddr} (h : decode w = .ok (.read addr)) :
    opField w = 0x5#4 ∧ addr = argField w := by
  simpa using (decode_ok_cases h).2

@[simp] theorem byteField_commandWord (op : BitVec 4) (b : Byte) :
    byteField (commandWord op (b.setWidth 16)) = b := by
  apply BitVec.eq_of_toNat_eq
  rw [byteField_toNat, commandWord_toNat, BitVec.toNat_setWidth]
  omega

@[simp] theorem byteHighField_commandWord (op : BitVec 4) (b : Byte) :
    byteHighField (commandWord op (b.setWidth 16)) = 0 := by
  apply BitVec.eq_of_toNat_eq
  rw [byteHighField_toNat, commandWord_toNat, BitVec.toNat_setWidth]
  show _ = 0
  omega

/-- The decoder takes back every operand the encoder wrote, over the whole range of its field (R82, R83). -/
@[simp] theorem decode_encode (i : Instr) : decode (encode i) = .ok i := by
  cases i <;> simp [encode, decode]

/-- A command word as a number: OP in the top four bits, the operand in ARG (R80). -/
theorem commandWord_ofNat (op : BitVec 4) {n : Nat} (h : n < 2 ^ 16) :
    commandWord op (BitVec.ofNat 16 n) = BitVec.ofNat 32 (op.toNat * 2 ^ 28 + n) := by
  apply BitVec.eq_of_toNat_eq
  rw [commandWord_toNat, BitVec.toNat_ofNat, BitVec.toNat_ofNat]
  omega

theorem encode_observe_ofNat {n : Nat} (h : n < 2 ^ 16) :
    encode (.observe (BitVec.ofNat 16 n)) = BitVec.ofNat 32 (0x10000000 + n) :=
  commandWord_ofNat 0x1#4 h

theorem encode_read_ofNat {n : Nat} (h : n < 2 ^ 16) :
    encode (.read (BitVec.ofNat 16 n)) = BitVec.ofNat 32 (0x50000000 + n) :=
  commandWord_ofNat 0x5#4 h

theorem encode_crcbyte_ofNat {n : Nat} (h : n < 2 ^ 8) :
    encode (.crcbyte (BitVec.ofNat 8 n)) = BitVec.ofNat 32 (0x40000000 + n) := by
  have hn : (BitVec.ofNat 8 n).setWidth 16 = BitVec.ofNat 16 n := by
    apply BitVec.eq_of_toNat_eq
    rw [BitVec.toNat_setWidth, BitVec.toNat_ofNat, BitVec.toNat_ofNat]
    omega
  rw [encode, hn]
  exact commandWord_ofNat 0x4#4 (by omega)

/-- Settles O4: a decoded operand is its field of ARG, and each number in a field's range is decoded from its word. -/
theorem operandsAreTheFieldsOfArg : Obligations.OperandsAreTheFieldsOfArg := by
  refine ⟨fun w len h => ?_, fun w b h => ?_, fun w addr h => ?_, fun n hn => ?_, fun n hn => ?_, fun n hn => ?_,
    decode_encode .reset, decode_encode .crcclr⟩
  · obtain ⟨-, rfl⟩ := fields_of_decode_observe h
    exact argField_toNat w
  · obtain ⟨-, -, rfl⟩ := fields_of_decode_crcbyte h
    exact byteField_toNat w
  · obtain ⟨-, rfl⟩ := fields_of_decode_read h
    exact argField_toNat w
  · rw [← encode_observe_ofNat hn, decode_encode]
  · rw [← encode_crcbyte_ofNat hn, decode_encode]
  · rw [← encode_read_ofNat hn, decode_encode]

end Sys2Proof

/-! The statements of 40_crc8.md: the reduction loop of the engine (R100), and the commands CRCCLR (R103) and CRCBYTE
(R104) with their illegal words (R84). -/

namespace Sys2Proof

/-! ### Illegal words, through the words that decode (R84) -/

theorem exists_decode_error_of_not_ok {w : CmdWord} (h : ∀ i, decode w ≠ .ok i) : ∃ e, decode w = .error e := by
  cases hd : decode w with
  | ok i => exact absurd hd (h i)
  | error e => exact ⟨e, rfl⟩

theorem opField_eq_of_toNat_div {w : CmdWord} {op : BitVec 4} (h : w.toNat / 2 ^ 28 = op.toNat) : opField w = op :=
  BitVec.eq_of_toNat_eq ((opField_toNat w).trans h)

/-- A word with RSVD zero is made of its OP and its ARG alone (R80). -/
theorem commandWord_opField_argField {w : CmdWord} (h : rsvdField w = 0) :
    commandWord (opField w) (argField w) = w := by
  have hrsvd : w.toNat / 2 ^ 16 % 2 ^ 12 = 0 := by rw [← rsvdField_toNat, h]; rfl
  apply BitVec.eq_of_toNat_eq
  rw [commandWord_toNat, opField_toNat, argField_toNat]
  omega

/-- The one word of OP 0x3 that decodes has RSVD and ARG zero (R84 cases 2 and 3). -/
theorem eq_of_decode_ok_of_op_crcclr {w : CmdWord} {i : Instr} (hop : opField w = 0x3#4) (h : decode w = .ok i) :
    w = 0x30000000#32 := by
  obtain ⟨hrsvd, hcases⟩ := decode_ok_cases h
  obtain ⟨harg, -⟩ : argField w = 0 ∧ i = .crcclr := by simpa [hop] using hcases
  rw [← commandWord_opField_argField hrsvd, hop, harg]
  rfl

/-- A word of OP 0x4 that decodes has ARG[15:8] zero (R84 case 4). -/
theorem byteHighField_of_decode_ok_of_op_crcbyte {w : CmdWord} {i : Instr} (hop : opField w = 0x4#4)
    (h : decode w = .ok i) : byteHighField w = 0 := by
  obtain ⟨-, hcases⟩ := decode_ok_cases h
  obtain ⟨hhigh, -⟩ : byteHighField w = 0 ∧ i = .crcbyte (byteField w) := by simpa [hop] using hcases
  exact hhigh

end Sys2Proof

namespace Sys2Proof.Machine

/-! ### The reduction loop on numbers (R100) -/

/-- One reduction step of R100 on numbers; `crcStep_toNat` ties it to the model's step. -/
def crcStepNat (c : Nat) : Nat := if c % 2 = 1 then (c / 2) ^^^ 0x8C else c / 2

theorem crcStep_toNat (c : Byte) : (crcStep c).toNat = crcStepNat c.toNat := by
  have hbit : c.getLsbD 0 = decide (c.toNat % 2 = 1) := Nat.testBit_zero _
  have hshift : (c >>> 1).toNat = c.toNat / 2 := BitVec.toNat_ushiftRight ..
  rw [crcStep, crcStepNat, hbit]
  by_cases hodd : c.toNat % 2 = 1
  · rw [if_pos (decide_eq_true hodd), if_pos hodd, BitVec.toNat_xor, hshift]
    rfl
  · rw [if_neg (by simpa using hodd), if_neg hodd, hshift]

theorem crcSteps_toNat (n : Nat) (c : Byte) : (crcSteps n c).toNat = crcStepNat^[n] c.toNat := by
  induction n generalizing c with
  | zero => rfl
  | succ n ih => rw [crcSteps, ih, crcStep_toNat, Function.iterate_succ_apply]

/-- Settles O11: n steps on bytes are n steps on numbers, here for the eight steps of one update. -/
theorem crcUpdateIsTheReductionLoop : Obligations.CrcUpdateIsTheReductionLoop := by
  intro acc b
  rw [crc8Update, crcSteps_toNat, BitVec.toNat_xor]
  rfl

/-! ### CRCCLR and CRCBYTE (R103, R104) -/

theorem perform_cons_of_next {i : Instr} {is : List Instr} {s t : State} (h : exec i s = .next t) :
    perform (i :: is) s = perform is t := by
  simp only [perform, h]

theorem perform_crcclr_cons (is : List Instr) (s : State) :
    perform (.crcclr :: is) s = perform is ((s.withCrcAcc 0x00#8).withOut none) :=
  perform_cons_of_next (exec_crcclr s)

/-- A second CRCCLR finds the state as it leaves it. -/
theorem perform_crcclr_crcclr_cons (is : List Instr) (s : State) :
    perform (.crcclr :: .crcclr :: is) s = perform (.crcclr :: is) s := by
  simp only [perform_crcclr_cons, State.withCrcAcc, State.withOut]

/-- Settles O15: the effect of CRCCLR, done twice, and the one word of OP 0x3 that decodes. -/
theorem crcclrClearsTheAccumulator : Obligations.CrcclrClearsTheAccumulator := by
  refine ⟨exec_crcclr, perform_crcclr_crcclr_cons [], fun w hop hne => ?_⟩
  exact exists_decode_error_of_not_ok fun i hi => hne (eq_of_decode_ok_of_op_crcclr (opField_eq_of_toNat_div hop) hi)

/-- An illegal word sets ILLEGAL and leaves every other element (R205). -/
theorem takeIllegal_eq (s : State) : takeIllegal s = { s with illegal := true, out := none } := rfl

/-- Settles O16: the effect of CRCBYTE, its two corner values, and the words of OP 0x4 that do not decode. -/
theorem crcbyteUpdatesTheAccumulator : Obligations.CrcbyteUpdatesTheAccumulator := by
  refine ⟨exec_crcbyte, by decide, by decide, fun w hop hhigh => ?_, takeIllegal_eq⟩
  refine exists_decode_error_of_not_ok fun i hi => hhigh ?_
  have hzero : w.toNat / 2 ^ 8 % 2 ^ 8 = 0 := by
    rw [← byteHighField_toNat, byteHighField_of_decode_ok_of_op_crcbyte (opField_eq_of_toNat_div hop) hi]; rfl
  omega

end Sys2Proof.Machine

/-! The statements of 41_leading_code.md: OBSERVE in phase LEAD (R121) with the push (R120), the validity test (R122)
and DELTA (R123). -/

namespace Sys2Proof.Machine

/-! ### A push that leaves room, and a push that leaves a window of four full (R120) -/

theorem vector_set_eq_setIfInBounds {n : Nat} (w : Vector Len n) {i : Nat} (v : Len) (h : i < n) :
    w.set i v h = w.setIfInBounds i v := by
  ext j hj
  rw [Vector.getElem_set, Vector.getElem_setIfInBounds hj]

/-- While the pushed value is not the last that fits, the window takes it and is not full. -/
theorem push_of_succ_lt {n : Nat} {w : Vector Len n} {cnt : BitVec 3} {v : Len} (hn : n ≤ 7)
    (h : cnt.toNat + 1 < n) : push w cnt v = ⟨w.setIfInBounds cnt.toNat v, cnt + 1, false⟩ := by
  have hlt : cnt.toNat < n := by omega
  have hcount := push_count_toNat w cnt v hn
  rw [push_of_lt hlt, if_pos hlt] at hcount
  have hroom : ¬(cnt + 1).toNat = n := by
    rw [hcount]
    omega
  rw [push_of_lt hlt, decide_eq_false hroom, vector_set_eq_setIfInBounds]

/-- A window of four that holds three values, or four of which the oldest is given up, is full after a push. -/
theorem push_four_eq_full {w : Vector Len 4} {cnt : BitVec 3} {a b c x : Len}
    (h : (cnt = 3 ∧ w = #v[a, b, c, x]) ∨ (cnt = 4 ∧ w = #v[x, a, b, c])) (v : Len) :
    push w cnt v = ⟨#v[a, b, c, v], 4, true⟩ := by
  obtain ⟨rfl, rfl⟩ | ⟨rfl, rfl⟩ := h
  · exact push_of_lt (by decide)
  · exact push_of_le (by decide)

/-! ### The validity test and DELTA (R122, R123) -/

theorem leadValid_iff (a b c d : Len) :
    leadValid #v[a, b, c, d] = true ↔
      b.toNat = a.toNat + 1 ∧ c.toNat = b.toNat + 1 ∧ d.toNat = c.toNat + 1 := by
  simp only [leadValid, Bool.and_eq_true, decide_eq_true_eq, and_assoc]
  rfl

/-- One less, modulo 2^16, is the number 2^16 - 1 more. -/
theorem sub_one_eq_ofNat_add (a : Len) : a - 1 = BitVec.ofNat 16 (a.toNat + 65535) := by
  bv_omega

/-! ### The three outcomes of OBSERVE in LEAD, by the push and the test (R121) -/

section
variable {s : State} {len : Len}

theorem observeLead_of_not_full (h : (push s.lead s.leadCnt len).full = false) :
    observeLead len s = ((s.withLead (push s.lead s.leadCnt len)).withOut none).withEvt .fill := by
  simpa [h] using observeLead_cases len s

theorem observeLead_of_valid (hfull : (push s.lead s.leadCnt len).full = true)
    (hvalid : leadValid (push s.lead s.leadCnt len).window = true) :
    observeLead len s =
      (leadSuccess ((s.withLead (push s.lead s.leadCnt len)).withOut none)).withEvt .advance := by
  simpa [hfull, hvalid] using observeLead_cases len s

theorem observeLead_of_not_valid (hfull : (push s.lead s.leadCnt len).full = true)
    (hvalid : leadValid (push s.lead s.leadCnt len).window = false) :
    observeLead len s = ((s.withLead (push s.lead s.leadCnt len)).withOut none).withEvt .noMatch := by
  simpa [hfull, hvalid] using observeLead_cases len s

end

/-- Settles O21: the push leaves room and the answer is FILL, or it leaves the window full and the run decides between
ADVANCE and NOMATCH. -/
theorem observeInLeadResult : Obligations.ObserveInLeadResult := by
  intro s len hst
  rw [exec_observe_lead hst]
  refine ⟨fun hcnt => ?fill, fun a b c x hwindow => ⟨fun hrun => ?advance, fun hrun => ?noMatch⟩⟩
  case fill =>
    have hpush := push_of_succ_lt (w := s.lead) (v := len) (by decide) (Nat.succ_lt_succ hcnt)
    rw [observeLead_of_not_full (by rw [hpush]), hpush]
    rfl
  case advance =>
    have hpush := push_four_eq_full hwindow len
    have hvalid := (leadValid_iff a b c len).2 hrun
    rw [observeLead_of_valid (by rw [hpush]) (by rw [hpush, hvalid]), hpush, ← sub_one_eq_ofNat_add]
    rfl
  case noMatch =>
    have hpush := push_four_eq_full hwindow len
    have hvalid := Bool.eq_false_iff.2 (mt (leadValid_iff a b c len).1 hrun)
    rw [observeLead_of_not_valid (by rw [hpush]) (by rw [hpush, hvalid]), hpush]
    rfl

end Sys2Proof.Machine

/-! The statements of 42_header_decoder.md: OBSERVE in phase MAGIC (R144) and in phase PREFIX (R148), with the band
test (R142), the nibbles (R143) and what a validated window sets (R146, R149). -/

namespace Sys2Proof.Machine

/-! ### The band test (R142) -/

theorem headerValid_iff (a b c d k₀ k₁ k₂ k₃ : Len) :
    headerValid #v[a, b, c, d] #v[k₀, k₁, k₂, k₃] = true ↔
      a &&& 0x01F0#16 = k₀ ∧ b &&& 0x01F0#16 = k₁ ∧ c &&& 0x01F0#16 = k₂ ∧ d &&& 0x01F0#16 = k₃ := by
  simp only [headerValid, Bool.and_eq_true, beq_iff_eq, and_assoc]
  rfl

/-! ### The nibbles and the two bytes of a header, as numbers (R143) -/

theorem lowNibble_toNat (v : Len) : (lowNibble v).toNat = v.toNat % 16 := by
  simp [lowNibble]

theorem slotZeroQuirk_toNat (h : BitVec 4) : (slotZeroQuirk h).toNat = if h.toNat = 8 then 15 else h.toNat := by
  have hquirk : h = Config.quirkIn ↔ h.toNat = 8 := BitVec.toNat_inj.symm
  simp only [slotZeroQuirk, hquirk]
  split <;> rfl

theorem nibblePair_toNat (hi lo : BitVec 4) : (nibblePair hi lo).toNat = hi.toNat * 16 + lo.toNat := by
  rw [nibblePair, BitVec.toNat_append, ← Nat.shiftLeft_add_eq_or_of_lt lo.isLt, Nat.shiftLeft_eq]

theorem headerValue_toNat (a b c d : Len) :
    (headerValue #v[a, b, c, d]).toNat = (if a.toNat % 16 = 8 then 15 else a.toNat % 16) * 16 + b.toNat % 16 := by
  rw [← lowNibble_toNat a, ← lowNibble_toNat b, ← slotZeroQuirk_toNat]
  exact nibblePair_toNat _ _

theorem headerCrc_toNat (a b c d : Len) :
    (headerCrc #v[a, b, c, d]).toNat = c.toNat % 16 * 16 + d.toNat % 16 := by
  rw [← lowNibble_toNat c, ← lowNibble_toNat d]
  exact nibblePair_toNat _ _

theorem byte_eq_ofNat_of_toNat_eq {v : Byte} {n : Nat} (h : v.toNat = n) : v = BitVec.ofNat 8 n := by
  rw [← h, BitVec.ofNat_toNat, BitVec.setWidth_eq]

/-! ### What a validated window sets, as numbers (R146, R149) -/

/-- A byte counts at most 64 fragments, so the counter of seven bits holds their number. -/
theorem fragmentCount_toNat (v : Byte) : (fragmentCount v).toNat = (v.toNat + 3) / 4 := by
  have hv := v.isLt
  exact Nat.mod_eq_of_lt (by omega)

theorem fullBitmap_fragmentCount (v : Byte) :
    fullBitmap (fragmentCount v) = BitVec.ofNat 64 (2 ^ ((v.toNat + 3) / 4) - 1) := by
  rw [fullBitmap, fragmentCount_toNat]

section
variable {v c : Byte} {value crc : Nat}

theorem magicSuccess_of_toNat (hv : v.toNat = value) (hc : c.toNat = crc) (s : State) :
    magicSuccess v c s =
      { s with
        totalLen := BitVec.ofNat 8 value
        totalCrc := BitVec.ofNat 8 crc
        seqQ := BitVec.ofNat 7 ((value + 3) / 4)
        seqR := BitVec.ofNat 2 (value % 4)
        bitmap := BitVec.ofNat 64 (2 ^ ((value + 3) / 4) - 1)
        st := .prefixCode } := by
  rw [magicSuccess, fullBitmap_fragmentCount, fragmentCount, lastFragmentBytes, hv,
    byte_eq_ofNat_of_toNat_eq hv, byte_eq_ofNat_of_toNat_eq hc]

theorem prefixSuccess_of_toNat (hv : v.toNat = value) (hc : c.toNat = crc) (s : State) :
    prefixSuccess v c s = { s with pwLen := BitVec.ofNat 8 value, pwCrc := BitVec.ofNat 8 crc, st := .sequence } := by
  rw [prefixSuccess, byte_eq_ofNat_of_toNat_eq hv, byte_eq_ofNat_of_toNat_eq hc]

end

/-! ### The three outcomes of OBSERVE in MAGIC and in PREFIX, by what the push leaves and the band test (R144, R148) -/

section
variable {s : State} {len : Len} {w : Vector Len 4} {n : BitVec 3}

theorem observeMagic_of_not_full (hpush : push s.mag s.magCnt (adjusted len s.delta) = ⟨w, n, false⟩) :
    observeMagic len s = ((s.withMag ⟨w, n, false⟩).withOut none).withEvt .fill := by
  simpa [hpush] using observeMagic_cases len s

theorem observeMagic_of_valid (hpush : push s.mag s.magCnt (adjusted len s.delta) = ⟨w, n, true⟩)
    (hvalid : headerValid w Config.magicBands = true) :
    observeMagic len s =
      (magicSuccess (headerValue w) (headerCrc w) ((s.withMag ⟨w, n, true⟩).withOut none)).withEvt .advance := by
  simpa [hpush, hvalid] using observeMagic_cases len s

theorem observeMagic_of_not_valid (hpush : push s.mag s.magCnt (adjusted len s.delta) = ⟨w, n, true⟩)
    (hvalid : headerValid w Config.magicBands = false) :
    observeMagic len s = ((s.withMag ⟨w, n, true⟩).withOut none).withEvt .noMatch := by
  simpa [hpush, hvalid] using observeMagic_cases len s

theorem observePrefix_of_not_full (hpush : push s.pfx s.pfxCnt (adjusted len s.delta) = ⟨w, n, false⟩) :
    observePrefix len s = ((s.withPfx ⟨w, n, false⟩).withOut none).withEvt .fill := by
  simpa [hpush] using observePrefix_cases len s

theorem observePrefix_of_valid (hpush : push s.pfx s.pfxCnt (adjusted len s.delta) = ⟨w, n, true⟩)
    (hvalid : headerValid w Config.prefixBands = true) :
    observePrefix len s =
      (prefixSuccess (headerValue w) (headerCrc w) ((s.withPfx ⟨w, n, true⟩).withOut none)).withEvt .advance := by
  simpa [hpush, hvalid] using observePrefix_cases len s

theorem observePrefix_of_not_valid (hpush : push s.pfx s.pfxCnt (adjusted len s.delta) = ⟨w, n, true⟩)
    (hvalid : headerValid w Config.prefixBands = false) :
    observePrefix len s = ((s.withPfx ⟨w, n, true⟩).withOut none).withEvt .noMatch := by
  simpa [hpush, hvalid] using observePrefix_cases len s

end

/-- Settles O24: the push leaves room and the answer is FILL, or it leaves the window full and the bands decide between
ADVANCE, with the registers of R146 taken from the nibbles, and NOMATCH. -/
theorem observeInMagicResult : Obligations.ObserveInMagicResult := by
  intro s len hst
  rw [exec_observe_magic hst]
  refine ⟨fun hcnt => ?fill, fun a b c x hwindow => ⟨fun hbanded => ?advance, fun hbanded => ?noMatch⟩⟩
  case fill =>
    rw [observeMagic_of_not_full (push_of_succ_lt (by decide) (Nat.succ_lt_succ hcnt))]
    rfl
  case advance =>
    rw [observeMagic_of_valid (push_four_eq_full hwindow _) ((headerValid_iff ..).2 hbanded),
      magicSuccess_of_toNat (headerValue_toNat ..) (headerCrc_toNat ..)]
    rfl
  case noMatch =>
    have hvalid := Bool.eq_false_iff.2 (mt (headerValid_iff ..).1 hbanded)
    rw [observeMagic_of_not_valid (push_four_eq_full hwindow _) hvalid]
    rfl

/-- Settles O25: as in MAGIC, with the bands of PREFIX and the registers of R149. -/
theorem observeInPrefixResult : Obligations.ObserveInPrefixResult := by
  intro s len hst
  rw [exec_observe_prefix hst]
  refine ⟨fun hcnt => ?fill, fun a b c x hwindow => ⟨fun hbanded => ?advance, fun hbanded => ?noMatch⟩⟩
  case fill =>
    rw [observePrefix_of_not_full (push_of_succ_lt (by decide) (Nat.succ_lt_succ hcnt))]
    rfl
  case advance =>
    rw [observePrefix_of_valid (push_four_eq_full hwindow _) ((headerValid_iff ..).2 hbanded),
      prefixSuccess_of_toNat (headerValue_toNat ..) (headerCrc_toNat ..)]
    rfl
  case noMatch =>
    have hvalid := Bool.eq_false_iff.2 (mt (headerValid_iff ..).1 hbanded)
    rw [observePrefix_of_not_valid (push_four_eq_full hwindow _) hvalid]
    rfl

end Sys2Proof.Machine

/-! The statements of 43_sequence.md: OBSERVE in phase SEQUENCE (R183) with the checks on a full window (R171 to R177),
the bitmap-gated write (R179), completion (R180), and the credential view (R182). -/

namespace Sys2Proof.Machine

/-! ### The fields of a sequence window, as numbers (R171 to R175) -/

theorem field7_toNat (v : Len) : (field7 v).toNat = v.toNat % 128 := by
  have hmask : v.toNat &&& 127 = v.toNat % 128 := Nat.and_two_pow_sub_one_eq_mod v.toNat 7
  rw [field7, BitVec.toNat_setWidth, BitVec.toNat_and]
  exact (congrArg (· % 128) hmask).trans (Nat.mod_mod ..)

theorem field7_setWidth (v : Len) : (field7 v).setWidth 8 = BitVec.ofNat 8 (v.toNat % 128) := by
  rw [← field7_toNat, BitVec.ofNat_toNat]

theorem requiredSlots_eq (q : BitVec 7) (r : BitVec 2) (idx : BitVec 7) :
    requiredSlots q r idx = fragmentSize q.toNat r.toNat idx.toNat := by
  have hr : r = 0 ↔ r.toNat = 0 := BitVec.toNat_inj.symm
  simp only [requiredSlots, fragmentSize, isLastFragment, Bool.and_eq_true, decide_eq_true_eq, bne_iff_ne, ne_eq, hr,
    and_assoc]

/-- The data slots of a window's last four that the index in w1 requires (R172, R173). -/
def windowData (s : State) (w1 w2 w3 w4 w5 : Len) : List Len :=
  [w2, w3, w4, w5].take (fragmentSize s.seqQ.toNat s.seqR.toNat (w1.toNat % 128))

/-- The bytes of a fragment's data slots (R174). -/
def slotBytes (data : List Len) : List Byte := data.map fun v => BitVec.ofNat 8 v.toNat

section
variable {s : State} {w0 w1 w2 w3 w4 w5 : Len}

theorem seqHeaderOk_iff :
    seqHeaderOk #v[w0, w1, w2, w3, w4, w5] = true ↔ w0 &&& 0x0180#16 = 0x0080#16 ∧ w1 &&& 0x0180#16 = 0x0080#16 := by
  simp only [seqHeaderOk, seqHeaderMarked, Bool.and_eq_true, beq_iff_eq]
  rfl

theorem dataSlots_eq_windowData :
    dataSlots #v[w0, w1, w2, w3, w4, w5] (requiredSlots s.seqQ s.seqR (field7 w1)) = windowData s w1 w2 w3 w4 w5 := by
  rw [requiredSlots_eq, field7_toNat]
  rfl

theorem seqDataOk_iff :
    seqDataOk #v[w0, w1, w2, w3, w4, w5] (requiredSlots s.seqQ s.seqR (field7 w1)) = true ↔
      ∀ v ∈ windowData s w1 w2 w3 w4 w5, v &&& 0x0100#16 = 0x0100#16 := by
  simp only [seqDataOk, dataSlots_eq_windowData, List.all_eq_true, seqDataMarked, beq_iff_eq]

theorem fragmentBytes_eq :
    fragmentBytes #v[w0, w1, w2, w3, w4, w5] (requiredSlots s.seqQ s.seqR (field7 w1)) =
      slotBytes (windowData s w1 w2 w3 w4 w5) := by
  simp only [fragmentBytes, dataSlots_eq_windowData, slotBytes, BitVec.ofNat_toNat]
  rfl

theorem fragmentCrcOk_iff (bytes : List Byte) :
    fragmentCrcOk (field7 w0) (field7 w1) bytes = true ↔
      (crc8 (BitVec.ofNat 8 (w1.toNat % 128) :: bytes)).toNat % 128 = w0.toNat % 128 := by
  rw [fragmentCrcOk, beq_iff_eq, ← BitVec.toNat_inj, field7_toNat, field7_setWidth, BitVec.toNat_setWidth]

theorem bitmapBit_iff (b : BitVec 64) (i : BitVec 7) : bitmapBit b i = true ↔ b.toNat / 2 ^ i.toNat % 2 = 1 := by
  rw [bitmapBit, BitVec.getLsbD, Nat.testBit_eq_decide_div_mod_eq, decide_eq_true_eq]

/-- The checks of R183 on a window, on the numbers in its slots. -/
theorem checkFragment_eq (hw : s.seqw = #v[w0, w1, w2, w3, w4, w5]) :
    checkFragment s =
      if ¬(w0 &&& 0x0180#16 = 0x0080#16 ∧ w1 &&& 0x0180#16 = 0x0080#16) then .error .noMatch
      else if ¬∀ v ∈ windowData s w1 w2 w3 w4 w5, v &&& 0x0100#16 = 0x0100#16 then .error .noMatch
      else if ¬(crc8 (BitVec.ofNat 8 (w1.toNat % 128) :: slotBytes (windowData s w1 w2 w3 w4 w5))).toNat % 128 =
        w0.toNat % 128 then .error .crcFail
      else if s.seqQ.toNat ≤ w1.toNat % 128 then .error .badIndex
      else if ¬s.bitmap.toNat / 2 ^ (w1.toNat % 128) % 2 = 1 then .error .dup
      else .ok ⟨field7 w1, slotBytes (windowData s w1 w2 w3 w4 w5)⟩ := by
  have h0 : #v[w0, w1, w2, w3, w4, w5][0] = w0 := rfl
  have h1 : #v[w0, w1, w2, w3, w4, w5][1] = w1 := rfl
  simp only [checkFragment, hw, h0, h1, fragmentBytes_eq, Bool.not_eq_true', ← Bool.not_eq_true, seqHeaderOk_iff,
    seqDataOk_iff, fragmentCrcOk_iff, bitmapBit_iff, field7_toNat]

end

/-! ### The outcomes of OBSERVE in SEQUENCE, by what the push leaves and the checks (R183) -/

theorem push_of_sequenceWindowFull {s : State} {len w0 w1 w2 w3 w4 w5 : Len}
    (h : sequenceWindowFull s len w0 w1 w2 w3 w4 w5) :
    push s.seqw s.seqCnt (adjusted len s.delta) = ⟨#v[w0, w1, w2, w3, w4, w5], 6, true⟩ := by
  obtain ⟨-, rfl, ⟨hcnt, x, hw⟩ | ⟨hcnt, x, hw⟩⟩ := h
  · rw [hcnt, hw]
    exact push_of_lt (by decide)
  · rw [hcnt, hw]
    exact push_of_le (by decide)

section
variable {s : State} {len : Len} {w : Vector Len 6} {n : BitVec 3}

theorem observeSequence_of_not_full (hpush : push s.seqw s.seqCnt (adjusted len s.delta) = ⟨w, n, false⟩) :
    observeSequence len s = .ok (((s.withSeqw ⟨w, n, false⟩).withOut none).withEvt .fill) := by
  simpa [hpush] using observeSequence_cases len s

theorem observeSequence_of_error {e : Evt} (hpush : push s.seqw s.seqCnt (adjusted len s.delta) = ⟨w, n, true⟩)
    (hcheck : checkFragment ((s.withSeqw ⟨w, n, true⟩).withOut none) = .error e) :
    observeSequence len s = .ok (((s.withSeqw ⟨w, n, true⟩).withOut none).withEvt e) := by
  simpa [hpush, hcheck] using observeSequence_cases len s

theorem observeSequence_of_ok {f : Fragment} (hpush : push s.seqw s.seqCnt (adjusted len s.delta) = ⟨w, n, true⟩)
    (hcheck : checkFragment ((s.withSeqw ⟨w, n, true⟩).withOut none) = .ok f) :
    observeSequence len s = acceptFragment f ((s.withSeqw ⟨w, n, true⟩).withOut none) := by
  simpa [hpush, hcheck] using observeSequence_cases len s

end

/-- The state the checks of R183 are made on: its window full, and no step output yet (R170). -/
def State.withFullSeqw (s : State) (w : Vector Len 6) : State := (s.withSeqw ⟨w, 6, true⟩).withOut none

/-- The first check that fails decides EVT, and nothing else changes but the window (R178). -/
theorem exec_observe_of_check_error {s : State} {len w0 w1 w2 w3 w4 w5 : Len} {e : Evt}
    (hwindow : sequenceWindowFull s len w0 w1 w2 w3 w4 w5)
    (hcheck : checkFragment (s.withFullSeqw #v[w0, w1, w2, w3, w4, w5]) = .error e) :
    exec (.observe len) s = .next ((s.withFullSeqw #v[w0, w1, w2, w3, w4, w5]).withEvt e) := by
  rw [exec_observe_sequence hwindow.1, observeSequence_of_error (push_of_sequenceWindowFull hwindow) hcheck]
  rfl

/-- A window that passes every check goes to the bitmap-gated write (R179). -/
theorem exec_observe_of_check_ok {s : State} {len w0 w1 w2 w3 w4 w5 : Len} {f : Fragment}
    (hwindow : sequenceWindowFull s len w0 w1 w2 w3 w4 w5)
    (hcheck : checkFragment (s.withFullSeqw #v[w0, w1, w2, w3, w4, w5]) = .ok f) :
    exec (.observe len) s = outcome (acceptFragment f (s.withFullSeqw #v[w0, w1, w2, w3, w4, w5])) := by
  rw [exec_observe_sequence hwindow.1, observeSequence_of_ok (push_of_sequenceWindowFull hwindow) hcheck]
  rfl

/-- Settles O27: the push leaves room and the answer is FILL, or the first check that fails on the full window gives its
code. -/
theorem observeInSequenceRejects : Obligations.ObserveInSequenceRejects := by
  intro s len
  refine ⟨fun hst hcnt => ?fill, fun w0 w1 w2 w3 w4 w5 hwindow => ?full⟩
  case fill =>
    rw [exec_observe_sequence hst, observeSequence_of_not_full (push_of_succ_lt (by decide) (Nat.succ_lt_succ hcnt))]
    rfl
  case full =>
    have hcheck := checkFragment_eq (s := s.withFullSeqw #v[w0, w1, w2, w3, w4, w5]) rfl
    refine ⟨fun hheader => ?_, fun hheader hdata => ?_, fun hheader hdata hcrc => ?_,
      fun hheader hdata hcrc hidx => ?_, fun hheader hdata hcrc hidx hbit => ?_⟩ <;>
      refine exec_observe_of_check_error hwindow (hcheck.trans ?_)
    · exact if_pos hheader
    · exact (if_neg (not_not_intro hheader)).trans (if_pos hdata)
    · exact (if_neg (not_not_intro hheader)).trans <| (if_neg (not_not_intro hdata)).trans (if_pos hcrc)
    · exact (if_neg (not_not_intro hheader)).trans <| (if_neg (not_not_intro hdata)).trans <|
        (if_neg (not_not_intro hcrc)).trans (if_pos hidx)
    · exact (if_neg (not_not_intro hheader)).trans <| (if_neg (not_not_intro hdata)).trans <|
        (if_neg (not_not_intro hcrc)).trans <| (if_neg (Nat.not_le_of_lt hidx)).trans <|
        if_pos (Nat.mod_two_ne_one.2 hbit)

/-! ### What a run of writes leaves in the payload (R179) -/

theorem memWriteBytes_cons_ok {m m' : Memory} {a : Nat} {v : Byte} {vs : List Byte}
    (h : memWriteBytes m a (v :: vs) = .ok m') : a < 256 ∧ memWriteBytes (m.poke a v) (a + 1) vs = .ok m' := by
  unfold memWriteBytes at h
  split at h
  · cases h
  · next m₁ hwrite =>
    obtain ⟨ha, rfl⟩ := memWrite_ok hwrite
    exact ⟨ha, h⟩

/-- A run of writes leaves every byte outside it. -/
theorem peek_memWriteBytes_of_outside {m m' : Memory} {a b : Nat} {bytes : List Byte} (hm : m.wf = true)
    (h : memWriteBytes m a bytes = .ok m') (hb : b < a ∨ a + bytes.length ≤ b) : m'.peek b = m.peek b := by
  induction bytes generalizing m a with
  | nil => cases h; rfl
  | cons v vs ih =>
    obtain ⟨ha, hrest⟩ := memWriteBytes_cons_ok h
    rw [List.length_cons] at hb
    rw [ih (Memory.wf_poke hm ha) hrest (by omega), Memory.peek_poke hm, if_neg (by omega)]

/-- A byte of a run of writes reads back. -/
theorem peek_memWriteBytes_of_inside {m m' : Memory} {a k : Nat} {bytes : List Byte} (hm : m.wf = true)
    (h : memWriteBytes m a bytes = .ok m') (hk : k < bytes.length) : m'.peek (a + k) = bytes[k] := by
  induction bytes generalizing m a k with
  | nil => exact absurd hk (Nat.not_lt_zero k)
  | cons v vs ih =>
    obtain ⟨ha, hrest⟩ := memWriteBytes_cons_ok h
    have hpoke := Memory.wf_poke (v := v) hm ha
    cases k with
    | zero =>
      rw [peek_memWriteBytes_of_outside hpoke hrest (.inl (by omega)), Memory.peek_poke hm, if_pos (Nat.add_zero a)]
      rfl
    | succ k =>
      rw [← Nat.add_assoc, Nat.add_right_comm]
      exact ih hpoke hrest (Nat.lt_of_succ_lt_succ hk)

/-! ### The BITMAP without one of its bits (R179) -/

/-- Clearing a bit that is set takes its power of two off the register's number. -/
theorem clearBitmapBit_toNat {b : BitVec 64} {i : BitVec 7} (h : bitmapBit b i = true) :
    (clearBitmapBit b i).toNat = b.toNat - 2 ^ i.toNat := by
  have hi := index_lt_of_bitmapBit h
  have hmask : (1#64 <<< i.toNat).toNat = 2 ^ i.toNat := by
    rw [← BitVec.twoPow_eq, BitVec.toNat_twoPow, Nat.mod_eq_of_lt (Nat.pow_lt_pow_right (by decide) hi)]
  have hdisjoint : clearBitmapBit b i &&& 1#64 <<< i.toNat = 0#64 := by
    rw [clearBitmapBit, BitVec.and_assoc, BitVec.and_comm (~~~_)]
    simp
  have hset : b &&& 1#64 <<< i.toNat = 1#64 <<< i.toNat := by
    rw [← BitVec.twoPow_eq, BitVec.and_twoPow]
    exact if_pos h
  have hunion : clearBitmapBit b i + 1#64 <<< i.toNat = b := by
    rw [BitVec.add_eq_or_of_and_eq_zero _ _ hdisjoint, clearBitmapBit]
    nth_rewrite 2 [← hset]
    rw [← BitVec.and_or_distrib_left, BitVec.not_or_self, BitVec.and_allOnes]
  have hsum := BitVec.toNat_add_of_and_eq_zero hdisjoint
  rw [hunion, hmask] at hsum
  omega

theorem clearBitmapBit_eq_ofNat {b : BitVec 64} {i : BitVec 7} (h : bitmapBit b i = true) :
    clearBitmapBit b i = BitVec.ofNat 64 (b.toNat - 2 ^ i.toNat) := by
  rw [← clearBitmapBit_toNat h, BitVec.ofNat_toNat, BitVec.setWidth_eq]

/-- No bit is left exactly where the bit cleared was the only one set (R180). -/
theorem clearBitmapBit_eq_zero_iff {b : BitVec 64} {i : BitVec 7} (h : bitmapBit b i = true) :
    clearBitmapBit b i = 0 ↔ b.toNat = 2 ^ i.toNat := by
  have hle : 2 ^ i.toNat ≤ b.toNat := Nat.ge_two_pow_of_testBit h
  rw [← BitVec.toNat_inj, clearBitmapBit_toNat h]
  change b.toNat - 2 ^ i.toNat = 0 ↔ _
  omega

/-! ### Accepting a fragment: the write, and completion where its BITMAP bit was the last one set (R179, R180) -/

/-- A fragment that passed every check is written, and the BITMAP's number says whether it completes the payload. -/
theorem acceptFragment_of_check_ok {s : State} {f : Fragment} (hcheck : checkFragment s = .ok f) :
    ∃ m, memWriteBytes s.payload (4 * f.index.toNat) f.bytes = .ok m ∧
      (s.bitmap.toNat = 2 ^ f.index.toNat → ∃ c,
        credential ((s.withPayload m 0).enterDone.withEvt .complete) = .ok c ∧
        acceptFragment f s = .ok (((s.withPayload m 0).enterDone.withEvt .complete).withOut (some c))) ∧
      (s.bitmap.toNat ≠ 2 ^ f.index.toNat →
        let rest := BitVec.ofNat 64 (s.bitmap.toNat - 2 ^ f.index.toNat)
        acceptFragment f s = .ok (((s.withPayload m rest).withEvt .accept).withOut none)) := by
  obtain ⟨-, -, -, -, -, hbit⟩ := checkFragment_ok hcheck
  have hlen : f.bytes.length ≤ 4 := checkFragment_bytes_length hcheck ▸ requiredSlots_le ..
  obtain ⟨m, hwrite, hcases⟩ := acceptFragment_cases (s := s) (index_lt_of_bitmapBit hbit) hlen
  simp only [State.withPayload_bitmap, ne_eq, clearBitmapBit_eq_zero_iff hbit] at hcases
  refine ⟨m, hwrite, fun hlast => ?_, fun hmore => ?_⟩
  · obtain ⟨-, c, hc, haccept⟩ | ⟨hmore, -⟩ := hcases
    · rw [(clearBitmapBit_eq_zero_iff hbit).2 hlast] at hc haccept
      exact ⟨c, hc, haccept⟩
    · exact absurd hlast hmore
  · obtain ⟨hlast, -⟩ | ⟨-, haccept⟩ := hcases
    · exact absurd hlast hmore
    · rw [haccept, clearBitmapBit_eq_ofNat hbit]

/-! ### Which commands enter DONE (R180) -/

/-- Neither ST nor DONE comes to say that the decode is complete. -/
def KeepsDone (s t : State) : Prop := (t.st = .done → s.st = .done) ∧ (t.done = true → s.done = true)

theorem keepsDone_of_eq {s t : State} (hst : t.st = s.st) (hdone : t.done = s.done) : KeepsDone s t :=
  ⟨hst.symm.trans, hdone.symm.trans⟩

/-- From s the state t completes the decode: the fragment in the window of t is the one whose BITMAP bit was the last
one set. -/
def CompletesDecode (s t : State) : Prop :=
  t.st = .done ∧ t.done = true ∧ t.evt = .complete ∧ t.bitmap = 0 ∧ t.seqw[1].toNat % 128 < s.seqQ.toNat ∧
    s.bitmap.toNat = 2 ^ (t.seqw[1].toNat % 128)

theorem observeLead_keepsDone (len : Len) (s : State) : KeepsDone s (observeLead len s) := by
  obtain ⟨-, h⟩ | ⟨-, -, h⟩ | ⟨-, -, h⟩ := observeLead_cases len s <;> simp [KeepsDone, h]

theorem observeMagic_keepsDone (len : Len) (s : State) : KeepsDone s (observeMagic len s) := by
  obtain ⟨-, h⟩ | ⟨-, -, h⟩ | ⟨-, -, h⟩ := observeMagic_cases len s <;> simp [KeepsDone, h]

theorem observePrefix_keepsDone (len : Len) (s : State) : KeepsDone s (observePrefix len s) := by
  obtain ⟨-, h⟩ | ⟨-, -, h⟩ | ⟨-, -, h⟩ := observePrefix_cases len s <;> simp [KeepsDone, h]

theorem observeSequence_keepsDone_or_completes (len : Len) (s : State) :
    ∃ t, observeSequence len s = .ok t ∧ (KeepsDone s t ∨ CompletesDecode s t) := by
  obtain ⟨-, h⟩ | ⟨-, e, -, h⟩ | ⟨-, f, hcheck, h⟩ := observeSequence_cases len s
  · exact ⟨_, h, .inl (keepsDone_of_eq rfl rfl)⟩
  · exact ⟨_, h, .inl (keepsDone_of_eq rfl rfl)⟩
  · obtain ⟨hf, -, -, -, hidx, -⟩ := checkFragment_ok hcheck
    obtain ⟨m, -, hlast, hmore⟩ := acceptFragment_of_check_ok hcheck
    by_cases hbitmap : s.bitmap.toNat = 2 ^ f.index.toNat
    · obtain ⟨c, -, haccept⟩ := hlast hbitmap
      rw [hf, field7_toNat] at hidx hbitmap
      exact ⟨_, h.trans haccept, .inr ⟨rfl, rfl, rfl, rfl, hidx, hbitmap⟩⟩
    · exact ⟨_, h.trans (hmore hbitmap), .inl (keepsDone_of_eq (by simp) (by simp))⟩

/-- Only an OBSERVE in SEQUENCE that completes the decode enters DONE (R180). -/
theorem exec_keepsDone_or_completes {i : Instr} {s t : State} (h : exec i s = .next t) :
    KeepsDone s t ∨ (isObserve i = true ∧ s.st = .sequence ∧ CompletesDecode s t) := by
  cases i with
  | observe len =>
    cases hst : s.st with
    | lead => rw [exec_observe_lead hst] at h; cases h; exact .inl (observeLead_keepsDone len s)
    | magic => rw [exec_observe_magic hst] at h; cases h; exact .inl (observeMagic_keepsDone len s)
    | prefixCode => rw [exec_observe_prefix hst] at h; cases h; exact .inl (observePrefix_keepsDone len s)
    | sequence =>
      obtain ⟨u, hu, hdone⟩ := observeSequence_keepsDone_or_completes len s
      rw [exec_observe_sequence hst, hu] at h
      cases h
      exact hdone.imp_right fun hcompletes => ⟨rfl, rfl, hcompletes⟩
    | done => rw [exec_observe_done hst] at h; cases h; exact .inl (keepsDone_of_eq rfl rfl)
  | reset => rw [exec_reset] at h; cases h; exact .inl ⟨nofun, nofun⟩
  | crcclr => rw [exec_crcclr] at h; cases h; exact .inl (keepsDone_of_eq rfl rfl)
  | crcbyte b => rw [exec_crcbyte] at h; cases h; exact .inl (keepsDone_of_eq rfl rfl)
  | read addr =>
    obtain ⟨v, -, hv⟩ := exec_read addr s
    rw [hv] at h; cases h; exact .inl (keepsDone_of_eq rfl rfl)

/-- Settles O28: the checks pass, so the fragment's bytes are written and its BITMAP bit falls, and completion follows
the BITMAP's number; no other command or outcome enters DONE. -/
theorem observeInSequenceAccepts : Obligations.ObserveInSequenceAccepts := by
  refine ⟨?accepts, fun i s t h hdone => ?entersDone⟩
  case accepts =>
    intro s len w0 w1 w2 w3 w4 w5 hwindow hwf t idx data hheader₀ hheader₁ hdata hcrc hidx hbit
    have hcheck : checkFragment (s.withFullSeqw #v[w0, w1, w2, w3, w4, w5]) =
        .ok ⟨field7 w1, slotBytes (windowData s w1 w2 w3 w4 w5)⟩ :=
      (checkFragment_eq rfl).trans <| (if_neg (not_not_intro ⟨hheader₀, hheader₁⟩)).trans <|
        (if_neg (not_not_intro hdata)).trans <| (if_neg (not_not_intro hcrc)).trans <|
        (if_neg (Nat.not_le_of_lt hidx)).trans (if_neg (not_not_intro hbit))
    obtain ⟨m, hwrite, hlast, hmore⟩ := acceptFragment_of_check_ok hcheck
    rw [field7_toNat] at hwrite hlast hmore
    have hlen : (slotBytes (windowData s w1 w2 w3 w4 w5)).length = data.length := List.length_map ..
    refine ⟨m, memWriteBytes_wf hwrite hwf, fun k hk => ?_, fun a ha => ?_, fun hbitmap => ?_, fun hbitmap => ?_⟩
    · rw [peek_memWriteBytes_of_inside hwf hwrite (hlen ▸ hk)]
      exact List.getElem_map _
    · exact peek_memWriteBytes_of_outside hwf hwrite (hlen ▸ ha)
    · obtain ⟨c, hc, haccept⟩ := hlast hbitmap
      exact ⟨c, hc, (exec_observe_of_check_ok hwindow hcheck).trans (congrArg outcome haccept)⟩
    · exact (exec_observe_of_check_ok hwindow hcheck).trans (congrArg outcome (hmore hbitmap))
  case entersDone =>
    obtain ⟨hst, hflag⟩ | ⟨hobserve, hsequence, hcompletes⟩ := exec_keepsDone_or_completes h
    · obtain ⟨hbefore, hafter⟩ | ⟨hbefore, hafter⟩ := hdone
      · exact absurd (hst hafter) hbefore
      · exact absurd (hflag hafter) (Bool.eq_false_iff.1 hbefore)
    · exact ⟨hobserve, hsequence, hcompletes⟩

/-! ### The credential view (R182) -/

/-- Settles O29: every byte of the three parts lies inside the payload buffer, so each read answers it. -/
theorem credentialViewSplitsThePayload : Obligations.CredentialViewSplitsThePayload := by
  intro s
  have hpassword : memReadBytes s.payload 0 s.pwLen.toNat = .ok ((List.range s.pwLen.toNat).map s.payload.peek) := by
    simpa using memReadBytes_of_le (m := s.payload) (show 0 + s.pwLen.toNat ≤ 256 by omega)
  have hnonce : credentialNonce s = .ok (s.payload.peek s.pwLen.toNat) := memRead_of_lt (by omega)
  have hinside : s.pwLen.toNat + 1 + ssidLength s ≤ 256 := by
    unfold ssidLength
    split <;> omega
  rw [credential, hpassword, hnonce, memReadBytes_of_le hinside]
  rfl

end Sys2Proof.Machine

/-! The statement of 44_control.md: OBSERVE in DONE (R202). -/

namespace Sys2Proof.Machine

/-- The whole of what OBSERVE in DONE leaves: every state element but EVT is passed on, and no credential is output
(R202, R39). -/
theorem observeDone_eq (s : State) : observeDone s = { s with evt := .ignored, out := none } := rfl

/-- Settles O35: in DONE the dispatch of R201 takes its last arm, whatever the length. -/
theorem observeInDoneIsIgnored : Obligations.ObserveInDoneIsIgnored := by
  intro s len hdone
  calc exec (.observe len) s
      = .next (observeDone s) := exec_observe_done hdone
    _ = .next { s with evt := .ignored, out := none } := congrArg _ (observeDone_eq s)

end Sys2Proof.Machine

/-! The statements of 30_encoding.md: the encoder and the decoder are inverse to each other (R82 to R84), the illegal
words are those of R84, and the assembler's plain lines (R87). -/

namespace Sys2Proof

/-- Settles O1: the decoder takes back what the encoder wrote, for every command. -/
theorem decodeOfEncodeIsTheCommand : Obligations.DecodeOfEncodeIsTheCommand :=
  fun i _ => decode_encode i

/-! ### A legal word as the encoding of its command (R82 to R84) -/

/-- ARG is its low byte alone where its high byte is zero (R84 case 4). -/
theorem setWidth_byteField {w : CmdWord} (h : byteHighField w = 0) : (byteField w).setWidth 16 = argField w := by
  have hhigh : w.toNat / 2 ^ 8 % 2 ^ 8 = 0 := by rw [← byteHighField_toNat, h]; rfl
  apply BitVec.eq_of_toNat_eq
  rw [BitVec.toNat_setWidth, byteField_toNat, argField_toNat]
  omega

theorem encode_of_decode_ok {w : CmdWord} {i : Instr} (h : decode w = .ok i) : encode i = w := by
  obtain ⟨hrsvd, hcases⟩ := decode_ok_cases h
  have hword := commandWord_opField_argField hrsvd
  obtain ⟨hop, rfl⟩ | ⟨hop, harg, rfl⟩ | ⟨hop, harg, rfl⟩ | ⟨hop, hhigh, rfl⟩ | ⟨hop, rfl⟩ := hcases
  · rwa [hop] at hword
  · rwa [hop, harg] at hword
  · rwa [hop, harg] at hword
  · rwa [hop, ← setWidth_byteField hhigh] at hword
  · rwa [hop] at hword

/-- Settles O2: RSVD is zero, and OP and ARG are those the encoder writes. -/
theorem encodeOfDecodeIsTheWord : Obligations.EncodeOfDecodeIsTheWord :=
  fun _ _ h => encode_of_decode_ok h

/-! ### An encoding as a number (R80, R82) -/

@[simp] theorem encode_observe_toNat (len : Len) : (encode (.observe len)).toNat = 0x10000000 + len.toNat :=
  commandWord_toNat ..

@[simp] theorem encode_reset_toNat : (encode .reset).toNat = 0x20000000 := rfl

@[simp] theorem encode_crcclr_toNat : (encode .crcclr).toNat = 0x30000000 := rfl

@[simp] theorem encode_crcbyte_toNat (b : Byte) : (encode (.crcbyte b)).toNat = 0x40000000 + b.toNat := by
  rw [encode, commandWord_toNat, BitVec.toNat_setWidth]
  show 4 * 2 ^ 28 + _ = _
  omega

@[simp] theorem encode_read_toNat (addr : StatusAddr) : (encode (.read addr)).toNat = 0x50000000 + addr.toNat :=
  commandWord_toNat ..

/-! ### The rows of the opcode table (R82) -/

/-- Masking off the low k bits leaves the number of the bits above them. -/
theorem and_highMask_toNat (w : CmdWord) (k : Nat) :
    (w &&& BitVec.allOnes 32 <<< k).toNat = w.toNat / 2 ^ k * 2 ^ k := by
  have hle : w.toNat / 2 ^ k * 2 ^ k ≤ w.toNat := Nat.div_mul_le_self ..
  rw [← BitVec.shiftLeft_ushiftRight, BitVec.toNat_shiftLeft, BitVec.toNat_ushiftRight, Nat.shiftRight_eq_div_pow,
    Nat.shiftLeft_eq, Nat.mod_eq_of_lt (by omega)]

/-- A row whose mask leaves out the low k bits compares the number of the bits above them. -/
theorem fits_highMask_iff (p w : CmdWord) (k : Nat) :
    (OpcodeRow.mk p (BitVec.allOnes 32 <<< k)).fits w = true ↔ w.toNat / 2 ^ k * 2 ^ k = p.toNat := by
  rw [OpcodeRow.fits, beq_iff_eq, ← and_highMask_toNat, BitVec.toNat_inj]

/-- The operand field of a row has 16 bits for OBSERVE and READ, 8 for CRCBYTE, and none for RESET and CRCCLR (R83). -/
def operandBits : Instr → Nat
  | .observe _ => 16
  | .reset => 0
  | .crcclr => 0
  | .crcbyte _ => 8
  | .read _ => 16

theorem opcodeRow_mask (i : Instr) : (opcodeRow i).mask = BitVec.allOnes 32 <<< operandBits i := by
  have hhalf : 0xFFFF0000#32 = BitVec.allOnes 32 <<< 16 := by decide
  have hword : 0xFFFFFFFF#32 = BitVec.allOnes 32 <<< 0 := by decide
  have hbyte : 0xFFFFFF00#32 = BitVec.allOnes 32 <<< 8 := by decide
  cases i with
  | observe len => exact hhalf
  | reset => exact hword
  | crcclr => exact hword
  | crcbyte b => exact hbyte
  | read addr => exact hhalf

theorem fits_opcodeRow_iff_toNat (i : Instr) (w : CmdWord) :
    (opcodeRow i).fits w = true ↔ w.toNat / 2 ^ operandBits i * 2 ^ operandBits i = (opcodeRow i).pattern.toNat := by
  rw [← fits_highMask_iff, ← opcodeRow_mask]

/-- An encoding fits its command's row. -/
theorem fits_encode (i : Instr) : (opcodeRow i).fits (encode i) = true := by
  rw [fits_opcodeRow_iff_toNat]
  cases i <;> simp [operandBits, opcodeRow] <;> omega

/-- A word that fits a row is the encoding of that row's command, its operand taken from the word. -/
theorem exists_encode_of_fits {j : Instr} {w : CmdWord} (h : (opcodeRow j).fits w = true) :
    ∃ i, encode i = w ∧ opcodeRow i = opcodeRow j := by
  rw [fits_opcodeRow_iff_toNat] at h
  cases j <;> simp only [operandBits, opcodeRow, BitVec.toNat_ofNat] at h
  case observe => exact ⟨.observe (argField w), BitVec.eq_of_toNat_eq (by simp [argField_toNat]; omega), rfl⟩
  case reset => exact ⟨.reset, BitVec.eq_of_toNat_eq (by simp; omega), rfl⟩
  case crcclr => exact ⟨.crcclr, BitVec.eq_of_toNat_eq (by simp; omega), rfl⟩
  case crcbyte => exact ⟨.crcbyte (byteField w), BitVec.eq_of_toNat_eq (by simp [byteField_toNat]; omega), rfl⟩
  case read => exact ⟨.read (argField w), BitVec.eq_of_toNat_eq (by simp [argField_toNat]; omega), rfl⟩

/-! ### The illegal words, on numbers (R84) -/

/-- R84's four cases on the numbers OP, RSVD and ARG; `not_illegalByRule_encode` and
`exists_encode_of_not_illegalByRule` tie them to the encoder, and so to the decoder. -/
def IllegalByRule (w : CmdWord) : Prop :=
  let op := w.toNat / 2 ^ 28
  let rsvd := w.toNat / 2 ^ 16 % 2 ^ 12
  let arg := w.toNat % 2 ^ 16
  op = 0 ∨ 6 ≤ op ∨ rsvd ≠ 0 ∨ ((op = 2 ∨ op = 3) ∧ arg ≠ 0) ∨ (op = 4 ∧ arg / 2 ^ 8 ≠ 0)

theorem not_illegalByRule_encode (i : Instr) : ¬IllegalByRule (encode i) := by
  cases i <;> simp [IllegalByRule] <;> omega

/-- A word that none of R84's cases takes is the encoding that its OP, with its ARG, gives. -/
theorem exists_encode_of_not_illegalByRule {w : CmdWord} (h : ¬IllegalByRule w) : ∃ i, encode i = w := by
  simp only [IllegalByRule] at h
  have hop : w.toNat / 2 ^ 28 = 1 ∨ w.toNat / 2 ^ 28 = 2 ∨ w.toNat / 2 ^ 28 = 3 ∨ w.toNat / 2 ^ 28 = 4 ∨
      w.toNat / 2 ^ 28 = 5 := by omega
  obtain hop | hop | hop | hop | hop := hop
  · exact ⟨.observe (argField w), BitVec.eq_of_toNat_eq (by simp [argField_toNat]; omega)⟩
  · exact ⟨.reset, BitVec.eq_of_toNat_eq (by simp; omega)⟩
  · exact ⟨.crcclr, BitVec.eq_of_toNat_eq (by simp; omega)⟩
  · exact ⟨.crcbyte (byteField w), BitVec.eq_of_toNat_eq (by simp [byteField_toNat]; omega)⟩
  · exact ⟨.read (argField w), BitVec.eq_of_toNat_eq (by simp [argField_toNat]; omega)⟩

/-- A word decodes to the command it encodes, and to no other. -/
theorem decode_ok_iff_encode (w : CmdWord) (i : Instr) : decode w = .ok i ↔ encode i = w :=
  ⟨encode_of_decode_ok, fun h => h ▸ decode_encode i⟩

theorem exists_decode_error_of_illegalByRule {w : CmdWord} (h : IllegalByRule w) : ∃ e, decode w = .error e :=
  exists_decode_error_of_not_ok fun i hi => not_illegalByRule_encode i ((decode_ok_iff_encode w i).1 hi ▸ h)

end Sys2Proof

namespace Sys2Proof.Machine

/-! ### A step, by the next presented word (R200, R205) -/

theorem step_of_input_nil {s : State} (h : s.input = []) : step s = .next (idle s) := by
  simp only [step, takeCommand, h]

theorem step_of_decode_ok {s : State} {w : CmdWord} {ws : List CmdWord} {i : Instr} (h : s.input = w :: ws)
    (hd : decode w = .ok i) : step s = exec i (s.withInput ws) := by
  simp only [step, takeCommand, h, hd]

theorem step_of_decode_error {s : State} {w : CmdWord} {ws : List CmdWord} {e : DecodeError} (h : s.input = w :: ws)
    (hd : decode w = .error e) : step s = .next (takeIllegal (s.withInput ws)) := by
  simp only [step, takeCommand, h, hd]

/-- Settles O3: an illegal word decodes to no command; any other word is an encoding, and fits that command's row
alone. -/
theorem illegalWordsAreExactlyThoseOfTheRule : Obligations.IllegalWordsAreExactlyThoseOfTheRule := by
  intro w
  refine ⟨fun hillegal => ?illegal, fun hlegal => ?legal⟩
  case illegal =>
    obtain ⟨e, he⟩ := exists_decode_error_of_illegalByRule hillegal
    exact ⟨⟨e, he⟩, fun s ws hinput => step_of_decode_error hinput he⟩
  case legal =>
    obtain ⟨i, hi⟩ := exists_encode_of_not_illegalByRule hlegal
    refine ⟨i, (decode_ok_iff_encode w i).2 hi, hi ▸ fits_encode i, fun j hj => ?_⟩
    obtain ⟨k, hk, hrow⟩ := exists_encode_of_fits hj
    have hki : .ok k = Except.ok i := (decode_encode k).symm.trans (hk ▸ hi ▸ decode_encode i)
    cases hki
    exact hrow.symm

theorem crcbyteWord_toNat (hi lo : Byte) :
    (0x4000#16 ++ hi ++ lo).toNat = 0x40000000 + hi.toNat * 2 ^ 8 + lo.toNat := by
  rw [BitVec.toNat_append, ← Nat.shiftLeft_add_eq_or_of_lt lo.isLt, BitVec.toNat_append,
    ← Nat.shiftLeft_add_eq_or_of_lt hi.isLt, Nat.shiftLeft_eq, Nat.shiftLeft_eq, BitVec.toNat_ofNat]
  omega

/-- Settles O55: ARG[15:8] of the word is not zero, which is R84's fourth case. -/
theorem illegalCrcbyteWordLeavesTheAccumulator : Obligations.IllegalCrcbyteWordLeavesTheAccumulator := by
  intro hi lo s ws hne hinput
  have hhi : 0 < hi.toNat := Nat.pos_of_ne_zero fun h => hne (BitVec.eq_of_toNat_eq h)
  have hillegal : IllegalByRule (0x4000#16 ++ hi ++ lo) := by
    simp only [IllegalByRule, crcbyteWord_toNat]
    omega
  obtain ⟨e, he⟩ := exists_decode_error_of_illegalByRule hillegal
  exact ⟨_, step_of_decode_error hinput he, rfl, rfl⟩

/-- Settles O5: each legal word is the encoding of its command, and the others are decided bit by bit. -/
theorem vectorWordsDecodeToTheirCommands : Obligations.VectorWordsDecodeToTheirCommands := by
  refine ⟨decode_encode (.observe 0), decode_encode (.observe 0xFFFF#16), decode_encode (.observe 281#16),
    decode_encode .reset, decode_encode .crcclr, decode_encode (.crcbyte 0x31#8), decode_encode (.read 0x108#16), ?_⟩
  decide

/-- Settles O7: the word decodes, so the step takes it off the list and performs its command. -/
theorem stepPerformsTheDecodedCommand : Obligations.StepPerformsTheDecodedCommand :=
  fun _ _ _ _ hinput hdecode => step_of_decode_ok hinput hdecode

/-- Settles O8: with no word presented the step is the waiting one. -/
theorem stepWaitsWithoutACommand : Obligations.StepWaitsWithoutACommand :=
  fun _ hinput => step_of_input_nil hinput

/-! ### The assembler's plain lines (R87) -/

/-- A line the assembler accepts gives its command's word, and any other line is refused. -/
theorem assemble_of_expandLine {l : AsmLine} {i : Instr} {w : CmdWord} (hline : expandLine l = [i])
    (hword : l.wellFormed = true → encode i = w) : assemble l = if l.wellFormed then some [w] else none := by
  unfold assemble
  split
  · next h => rw [hline, List.map_singleton, hword h]
  · rfl

/-- Settles O6: a line in range gives the word that its number encodes to. -/
theorem assemblerWordsAndRanges : Obligations.AssemblerWordsAndRanges := by
  refine ⟨fun n => ?_, fun n => ?_, fun n => ?_, rfl, rfl⟩
  · simpa [AsmLine.wellFormed] using assemble_of_expandLine (l := .observe n) rfl fun h =>
      encode_observe_ofNat (Nat.lt_succ_of_le (of_decide_eq_true h))
  · simpa [AsmLine.wellFormed] using assemble_of_expandLine (l := .crcbyte n) rfl fun h =>
      encode_crcbyte_ofNat (Nat.lt_succ_of_le (of_decide_eq_true h))
  · simpa [AsmLine.wellFormed] using assemble_of_expandLine (l := .read n) rfl fun h =>
      encode_read_ofNat (Nat.lt_succ_of_le (of_decide_eq_true h))

end Sys2Proof.Machine

/-! Everything a command and a step can leave, said once: the outcomes of OBSERVE in every phase, the commands of the
CRC port and of the status port, and a rule for invariants of every step (44_control.md R200, R201). -/

namespace Sys2Proof.Machine

/-- The credential view is of the payload and the two lengths alone (R182). -/
theorem credential_congr {s t : State} (hpayload : t.payload = s.payload) (hpw : t.pwLen = s.pwLen)
    (htotal : t.totalLen = s.totalLen) : credential t = credential s := by
  simp only [credential, credentialNonce, ssidLength, hpayload, hpw, htotal]

/-! ### The outcomes of OBSERVE (R121, R144, R148, R183, R202) -/

/-- OBSERVE len takes s to the state named: one constructor for each way the active unit can end;
`exec_observe_iff` ties it to the model. -/
inductive Observed (len : Len) (s : State) : State → Prop
  | leadKept (p : Pushed 4) (e : Evt) (hst : s.st = .lead) (hpush : p = push s.lead s.leadCnt len)
      (hkept : (p.full = false ∧ e = .fill) ∨ (p.full = true ∧ leadValid p.window = false ∧ e = .noMatch)) :
      Observed len s { s with lead := p.window, leadCnt := p.count, evt := e, out := none }
  | leadAdvance (p : Pushed 4) (hst : s.st = .lead) (hpush : p = push s.lead s.leadCnt len) (hfull : p.full = true)
      (hvalid : leadValid p.window = true) :
      Observed len s
        { s with
          lead := p.window, leadCnt := p.count, delta := p.window[0] - 1, leadValid := true, st := .magic
          evt := .advance, out := none }
  | magicKept (p : Pushed 4) (e : Evt) (hst : s.st = .magic) (hpush : p = push s.mag s.magCnt (adjusted len s.delta))
      (hkept : (p.full = false ∧ e = .fill) ∨
        (p.full = true ∧ headerValid p.window Config.magicBands = false ∧ e = .noMatch)) :
      Observed len s { s with mag := p.window, magCnt := p.count, evt := e, out := none }
  | magicAdvance (p : Pushed 4) (hst : s.st = .magic) (hpush : p = push s.mag s.magCnt (adjusted len s.delta))
      (hfull : p.full = true) (hvalid : headerValid p.window Config.magicBands = true) :
      Observed len s
        { s with
          mag := p.window, magCnt := p.count, totalLen := headerValue p.window, totalCrc := headerCrc p.window
          seqQ := fragmentCount (headerValue p.window), seqR := lastFragmentBytes (headerValue p.window)
          bitmap := fullBitmap (fragmentCount (headerValue p.window)), st := .prefixCode, evt := .advance, out := none }
  | prefixKept (p : Pushed 4) (e : Evt) (hst : s.st = .prefixCode)
      (hpush : p = push s.pfx s.pfxCnt (adjusted len s.delta))
      (hkept : (p.full = false ∧ e = .fill) ∨
        (p.full = true ∧ headerValid p.window Config.prefixBands = false ∧ e = .noMatch)) :
      Observed len s { s with pfx := p.window, pfxCnt := p.count, evt := e, out := none }
  | prefixAdvance (p : Pushed 4) (hst : s.st = .prefixCode) (hpush : p = push s.pfx s.pfxCnt (adjusted len s.delta))
      (hfull : p.full = true) (hvalid : headerValid p.window Config.prefixBands = true) :
      Observed len s
        { s with
          pfx := p.window, pfxCnt := p.count, pwLen := headerValue p.window, pwCrc := headerCrc p.window
          st := .sequence, evt := .advance, out := none }
  | sequenceKept (p : Pushed 6) (e : Evt) (hst : s.st = .sequence)
      (hpush : p = push s.seqw s.seqCnt (adjusted len s.delta))
      (hkept : (p.full = false ∧ e = .fill) ∨
        (p.full = true ∧ checkFragment ((s.withSeqw p).withOut none) = .error e)) :
      Observed len s { s with seqw := p.window, seqCnt := p.count, evt := e, out := none }
  | sequenceAccept (p : Pushed 6) (f : Fragment) (m : Memory) (b : BitVec 64) (hst : s.st = .sequence)
      (hpush : p = push s.seqw s.seqCnt (adjusted len s.delta)) (hfull : p.full = true)
      (hcheck : checkFragment ((s.withSeqw p).withOut none) = .ok f)
      (hwrite : memWriteBytes s.payload (4 * f.index.toNat) f.bytes = .ok m)
      (hclear : b = clearBitmapBit s.bitmap f.index) (hmore : b ≠ 0) :
      Observed len s
        { s with seqw := p.window, seqCnt := p.count, payload := m, bitmap := b, evt := .accept, out := none }
  | sequenceComplete (p : Pushed 6) (f : Fragment) (m : Memory) (c : Credential) (hst : s.st = .sequence)
      (hpush : p = push s.seqw s.seqCnt (adjusted len s.delta)) (hfull : p.full = true)
      (hcheck : checkFragment ((s.withSeqw p).withOut none) = .ok f)
      (hwrite : memWriteBytes s.payload (4 * f.index.toNat) f.bytes = .ok m)
      (hclear : clearBitmapBit s.bitmap f.index = 0)
      (hcredential : credential { s with payload := m } = .ok c) :
      Observed len s
        { s with
          seqw := p.window, seqCnt := p.count, payload := m, bitmap := 0, st := .done, done := true, evt := .complete
          out := some c }
  | done (hst : s.st = .done) : Observed len s { s with evt := .ignored, out := none }

theorem observed_observeLead {len : Len} {s : State} (hst : s.st = .lead) : Observed len s (observeLead len s) := by
  obtain ⟨hfull, h⟩ | ⟨hfull, hvalid, h⟩ | ⟨hfull, hvalid, h⟩ := observeLead_cases len s <;> rw [h]
  · exact .leadKept _ _ hst rfl (.inl ⟨hfull, rfl⟩)
  · exact .leadAdvance _ hst rfl hfull hvalid
  · exact .leadKept _ _ hst rfl (.inr ⟨hfull, hvalid, rfl⟩)

theorem observed_observeMagic {len : Len} {s : State} (hst : s.st = .magic) : Observed len s (observeMagic len s) := by
  obtain ⟨hfull, h⟩ | ⟨hfull, hvalid, h⟩ | ⟨hfull, hvalid, h⟩ := observeMagic_cases len s <;> rw [h]
  · exact .magicKept _ _ hst rfl (.inl ⟨hfull, rfl⟩)
  · exact .magicAdvance _ hst rfl hfull hvalid
  · exact .magicKept _ _ hst rfl (.inr ⟨hfull, hvalid, rfl⟩)

theorem observed_observePrefix {len : Len} {s : State} (hst : s.st = .prefixCode) :
    Observed len s (observePrefix len s) := by
  obtain ⟨hfull, h⟩ | ⟨hfull, hvalid, h⟩ | ⟨hfull, hvalid, h⟩ := observePrefix_cases len s <;> rw [h]
  · exact .prefixKept _ _ hst rfl (.inl ⟨hfull, rfl⟩)
  · exact .prefixAdvance _ hst rfl hfull hvalid
  · exact .prefixKept _ _ hst rfl (.inr ⟨hfull, hvalid, rfl⟩)

/-- The named updates of an accepting OBSERVE, field by field (R179). -/
theorem withPayload_withEvt_accept_eq (s : State) (p : Pushed 6) (m : Memory) (b : BitVec 64) :
    ((((s.withSeqw p).withOut none).withPayload m b).withEvt .accept).withOut none =
      { s with seqw := p.window, seqCnt := p.count, payload := m, bitmap := b, evt := .accept, out := none } := by
  simp only [State.withSeqw, State.withOut, State.withPayload, State.withEvt]

/-- The named updates of a completing OBSERVE, field by field (R180). -/
theorem withPayload_enterDone_eq (s : State) (p : Pushed 6) (m : Memory) (o : Option Credential) :
    ((((s.withSeqw p).withOut none).withPayload m 0).enterDone.withEvt .complete).withOut o =
      { s with
        seqw := p.window, seqCnt := p.count, payload := m, bitmap := 0, st := .done, done := true, evt := .complete
        out := o } := by
  simp only [State.withSeqw, State.withOut, State.withPayload, State.enterDone, State.withEvt]

/-- The credential view at completion reads the payload just written. -/
theorem credential_withPayload_enterDone (s : State) (p : Pushed 6) (m : Memory) :
    credential ((((s.withSeqw p).withOut none).withPayload m 0).enterDone.withEvt .complete) =
      credential { s with payload := m } :=
  credential_congr (by simp) (by simp) (by simp)

theorem observed_observeSequence {len : Len} {s : State} (hst : s.st = .sequence) :
    ∃ t, observeSequence len s = .ok t ∧ Observed len s t := by
  obtain ⟨hfull, h⟩ | ⟨hfull, e, he, h⟩ | ⟨hfull, f, hcheck, h⟩ := observeSequence_cases len s
  · exact ⟨_, h, .sequenceKept _ _ hst rfl (.inl ⟨hfull, rfl⟩)⟩
  · exact ⟨_, h, .sequenceKept _ _ hst rfl (.inr ⟨hfull, he⟩)⟩
  · obtain ⟨-, -, -, -, -, hbit⟩ := checkFragment_ok hcheck
    have hlen : f.bytes.length ≤ 4 := checkFragment_bytes_length hcheck ▸ requiredSlots_le ..
    obtain ⟨m, hwrite, ⟨hlast, c, hc, ha⟩ | ⟨hmore, ha⟩⟩ := acceptFragment_cases (index_lt_of_bitmapBit hbit) hlen
    · rw [show clearBitmapBit _ _ = 0 from hlast] at hc ha
      rw [withPayload_enterDone_eq] at ha
      rw [credential_withPayload_enterDone] at hc
      exact ⟨_, h.trans ha, .sequenceComplete _ f m c hst rfl hfull hcheck hwrite hlast hc⟩
    · rw [withPayload_withEvt_accept_eq] at ha
      exact ⟨_, h.trans ha, .sequenceAccept _ f m _ hst rfl hfull hcheck hwrite rfl hmore⟩

/-- OBSERVE always answers, by one of the outcomes. -/
theorem exec_observe_observed (len : Len) (s : State) : ∃ t, exec (.observe len) s = .next t ∧ Observed len s t := by
  cases hst : s.st with
  | lead => exact ⟨_, exec_observe_lead hst, observed_observeLead hst⟩
  | magic => exact ⟨_, exec_observe_magic hst, observed_observeMagic hst⟩
  | prefixCode => exact ⟨_, exec_observe_prefix hst, observed_observePrefix hst⟩
  | sequence =>
    obtain ⟨t, ht, hobserved⟩ := observed_observeSequence (len := len) hst
    exact ⟨t, by rw [exec_observe_sequence hst, ht, outcome], hobserved⟩
  | done => exact ⟨_, exec_observe_done hst, .done hst⟩

theorem acceptFragment_of_more {f : Fragment} {s : State} {m : Memory}
    (hwrite : memWriteBytes s.payload (4 * f.index.toNat) f.bytes = .ok m)
    (hmore : clearBitmapBit s.bitmap f.index ≠ 0) :
    acceptFragment f s = .ok (((s.withPayload m (clearBitmapBit s.bitmap f.index)).withEvt .accept).withOut none) := by
  simp only [acceptFragment, hwrite, State.withPayload_bitmap]
  exact if_neg hmore

theorem acceptFragment_of_last {f : Fragment} {s : State} {m : Memory} {c : Credential}
    (hwrite : memWriteBytes s.payload (4 * f.index.toNat) f.bytes = .ok m)
    (hlast : clearBitmapBit s.bitmap f.index = 0)
    (hcredential : credential ((s.withPayload m 0).enterDone.withEvt .complete) = .ok c) :
    acceptFragment f s = .ok (((s.withPayload m 0).enterDone.withEvt .complete).withOut (some c)) := by
  simp only [acceptFragment, hwrite, hlast, completeDecode, hcredential]
  exact if_pos rfl

theorem Observed.exec_eq {len : Len} {s t : State} (h : Observed len s t) : exec (.observe len) s = .next t := by
  cases h with
  | leadKept p e hst hpush hkept =>
    subst hpush
    rw [exec_observe_lead hst]
    obtain ⟨hfull, rfl⟩ | ⟨hfull, hvalid, rfl⟩ := hkept
    · exact congrArg _ (observeLead_of_not_full hfull)
    · exact congrArg _ (observeLead_of_not_valid hfull hvalid)
  | leadAdvance p hst hpush hfull hvalid =>
    subst hpush
    rw [exec_observe_lead hst]
    exact congrArg _ (observeLead_of_valid hfull hvalid)
  | magicKept p e hst hpush hkept =>
    obtain ⟨w, n, full⟩ := p
    rw [exec_observe_magic hst]
    obtain ⟨rfl, rfl⟩ | ⟨rfl, hvalid, rfl⟩ := hkept
    · exact congrArg _ (observeMagic_of_not_full hpush.symm)
    · exact congrArg _ (observeMagic_of_not_valid hpush.symm hvalid)
  | magicAdvance p hst hpush hfull hvalid =>
    obtain ⟨w, n, full⟩ := p
    subst hfull
    rw [exec_observe_magic hst]
    exact congrArg _ (observeMagic_of_valid hpush.symm hvalid)
  | prefixKept p e hst hpush hkept =>
    obtain ⟨w, n, full⟩ := p
    rw [exec_observe_prefix hst]
    obtain ⟨rfl, rfl⟩ | ⟨rfl, hvalid, rfl⟩ := hkept
    · exact congrArg _ (observePrefix_of_not_full hpush.symm)
    · exact congrArg _ (observePrefix_of_not_valid hpush.symm hvalid)
  | prefixAdvance p hst hpush hfull hvalid =>
    obtain ⟨w, n, full⟩ := p
    subst hfull
    rw [exec_observe_prefix hst]
    exact congrArg _ (observePrefix_of_valid hpush.symm hvalid)
  | sequenceKept p e hst hpush hkept =>
    obtain ⟨w, n, full⟩ := p
    rw [exec_observe_sequence hst]
    obtain ⟨rfl, rfl⟩ | ⟨rfl, hcheck⟩ := hkept
    · exact congrArg outcome (observeSequence_of_not_full hpush.symm)
    · exact congrArg outcome (observeSequence_of_error hpush.symm hcheck)
  | sequenceAccept p f m b hst hpush hfull hcheck hwrite hclear hmore =>
    obtain ⟨w, n, full⟩ := p
    subst hfull hclear
    rw [exec_observe_sequence hst, observeSequence_of_ok hpush.symm hcheck, ← withPayload_withEvt_accept_eq]
    exact congrArg outcome (acceptFragment_of_more (s := (s.withSeqw ⟨w, n, true⟩).withOut none) hwrite hmore)
  | sequenceComplete p f m c hst hpush hfull hcheck hwrite hclear hcredential =>
    obtain ⟨w, n, full⟩ := p
    subst hfull
    rw [exec_observe_sequence hst, observeSequence_of_ok hpush.symm hcheck, ← withPayload_enterDone_eq]
    rw [← credential_withPayload_enterDone s ⟨w, n, true⟩] at hcredential
    exact congrArg outcome
      (acceptFragment_of_last (s := (s.withSeqw ⟨w, n, true⟩).withOut none) hwrite hclear hcredential)
  | done hst => exact exec_observe_done hst

theorem exec_observe_iff {len : Len} {s t : State} : exec (.observe len) s = .next t ↔ Observed len s t := by
  refine ⟨fun h => ?_, Observed.exec_eq⟩
  obtain ⟨u, hu, hobserved⟩ := exec_observe_observed len s
  obtain rfl : u = t := Host.Outcome.next.inj (hu.symm.trans h)
  exact hobserved

/-! ### The other commands, and every command (R103, R104, R203, R204) -/

/-- The commands of the CRC port and of the status port write their own register, and there is no step output. -/
theorem exec_port {i : Instr} {s t : State} (hi : drivesDecoder i = false) (h : exec i s = .next t) :
    t = { s with crcAcc := t.crcAcc, rdata := t.rdata, out := none } := by
  cases i with
  | observe => cases hi
  | reset => cases hi
  | crcclr => rw [exec_crcclr] at h; cases h; rfl
  | crcbyte b => rw [exec_crcbyte] at h; cases h; rfl
  | read addr =>
    obtain ⟨v, -, hv⟩ := exec_read addr s
    rw [hv] at h; cases h; rfl

/-- What a command that answers t can be. -/
theorem exec_cases {i : Instr} {s t : State} (h : exec i s = .next t) :
    (∃ len, i = .observe len ∧ Observed len s t) ∨ (i = .reset ∧ t = State.reset.withInput s.input) ∨
      (drivesDecoder i = false ∧ t = { s with crcAcc := t.crcAcc, rdata := t.rdata, out := none }) := by
  cases i with
  | observe len => exact .inl ⟨len, rfl, exec_observe_iff.1 h⟩
  | reset => exact .inr (.inl ⟨rfl, (Host.Outcome.next.inj h).symm⟩)
  | crcclr => exact .inr (.inr ⟨rfl, exec_port rfl h⟩)
  | crcbyte b => exact .inr (.inr ⟨rfl, exec_port rfl h⟩)
  | read addr => exact .inr (.inr ⟨rfl, exec_port rfl h⟩)

/-- Every command answers in every state. -/
theorem exec_answers (i : Instr) (s : State) : ∃ t, exec i s = .next t := by
  cases i with
  | observe len =>
    obtain ⟨t, ht, -⟩ := exec_observe_observed len s
    exact ⟨t, ht⟩
  | reset => exact ⟨_, exec_reset s⟩
  | crcclr => exact ⟨_, exec_crcclr s⟩
  | crcbyte b => exact ⟨_, exec_crcbyte b s⟩
  | read addr =>
    obtain ⟨v, -, hv⟩ := exec_read addr s
    exact ⟨_, hv⟩

/-- Settles O10: each command answers, and a step waits, performs one, or flags an illegal word. -/
theorem noCommandFaultsInAnyState : Obligations.NoCommandFaultsInAnyState := by
  refine ⟨exec_answers, fun s => ?_⟩
  obtain ⟨-, h⟩ | ⟨w, ws, i, -, -, h⟩ | ⟨w, ws, e, -, -, h⟩ := step_cases s
  · exact ⟨_, h⟩
  · rw [h]
    exact exec_answers i _
  · exact ⟨_, h⟩

/-! ### What every step keeps -/

/-- s with other values in what decoding does not read: CRC_ACC, RDATA, ILLEGAL, EVT, the step output and the words
presented (R35 to R39, log 1). -/
def State.withPorts (s : State) (c : Byte) (r : ReadData) (g : Bool) (e : Evt) (o : Option Credential)
    (ws : List CmdWord) : State :=
  { s with crcAcc := c, rdata := r, illegal := g, evt := e, out := o, input := ws }

/-- An invariant that does not speak of the ports, holds at reset, and survives every outcome of OBSERVE is kept by
every command. -/
theorem exec_keeps {P : State → Prop} (hports : ∀ s c r g e o ws, P s → P (s.withPorts c r g e o ws))
    (hreset : P State.reset) (hobserve : ∀ len s t, P s → Observed len s t → P t) {i : Instr} {s t : State} (hs : P s)
    (h : exec i s = .next t) : P t := by
  obtain ⟨len, -, hobserved⟩ | ⟨-, rfl⟩ | ⟨-, ht⟩ := exec_cases h
  · exact hobserve len s t hs hobserved
  · exact hports State.reset 0 0 false .none none s.input hreset
  · rw [ht]
    exact hports s t.crcAcc t.rdata s.illegal s.evt none s.input hs

/-- Such an invariant is kept by every step. -/
theorem step_keeps {P : State → Prop} (hports : ∀ s c r g e o ws, P s → P (s.withPorts c r g e o ws))
    (hreset : P State.reset) (hobserve : ∀ len s t, P s → Observed len s t → P t) {s t : State} (hs : P s)
    (h : step s = .next t) : P t := by
  obtain ⟨-, hstep⟩ | ⟨w, ws, i, -, -, hstep⟩ | ⟨w, ws, e, -, -, hstep⟩ := step_cases s <;> rw [hstep] at h
  · cases h
    exact hports s s.crcAcc s.rdata s.illegal s.evt none s.input hs
  · exact exec_keeps hports hreset hobserve (hports s s.crcAcc s.rdata s.illegal s.evt s.out ws hs) h
  · cases h
    exact hports s s.crcAcc s.rdata true s.evt none ws hs

end Sys2Proof.Machine

/-! The statements of 10_state.md section 8: the invariants R24, R33, R40, R41 and the payload's canonical form, at
reset and kept by every step; each is a case split over the outcomes of OBSERVE. -/

namespace Sys2Proof.Machine

/-! ### What a push does to a window's counter and unfilled slots (R120) -/

section
variable {n : Nat} {w : Vector Len n} {cnt : BitVec 3} {v : Len} {p : Pushed n}

theorem push_count_le (hpush : p = push w cnt v) (hn : n ≤ 7) (h : cnt.toNat ≤ n) : p.count.toNat ≤ n := by
  rw [hpush, push_count_toNat w cnt v hn]
  split <;> omega

/-- A full window's counter is its width. -/
theorem count_of_push_full (hpush : p = push w cnt v) (hfull : p.full = true) : p.count.toNat = n := by
  rw [hpush, push_full, decide_eq_true_eq] at hfull
  rw [hpush, hfull]

/-- The slots at and past the counter stay 0: a push writes below its new counter, or shifts a window that has no such
slot. -/
theorem push_unfilled_zero (hpush : p = push w cnt v) (hn : n ≤ 7)
    (h : ∀ i, (hi : i < n) → cnt.toNat ≤ i → w[i] = 0) :
    ∀ i, (hi : i < n) → p.count.toNat ≤ i → p.window[i] = 0 := by
  intro i hi hcount
  subst hpush
  rw [push_count_toNat w cnt v hn] at hcount
  rw [push_getElem]
  split at hcount
  · next hroom => rw [if_pos hroom, if_neg (by omega), h i hi (by omega)]
  · omega

end

/-! ### The registers that a validated magic window sets, as numbers (R146) -/

theorem lastFragmentBytes_toNat (v : Byte) : (lastFragmentBytes v).toNat = v.toNat % 4 :=
  Nat.mod_eq_of_lt (by omega)

/-- BITMAP has a bit for each fragment of a byte's number of bytes, at most 64. -/
theorem fullBitmap_fragmentCount_toNat (v : Byte) :
    (fullBitmap (fragmentCount v)).toNat = 2 ^ (fragmentCount v).toNat - 1 := by
  have hle : (fragmentCount v).toNat ≤ 64 := by rw [fragmentCount_toNat]; omega
  have hpow : 2 ^ (fragmentCount v).toNat ≤ 2 ^ 64 := Nat.pow_le_pow_right (by decide) hle
  exact Nat.mod_eq_of_lt (by have := Nat.two_pow_pos (fragmentCount v).toNat; omega)

/-- A fragment that passed every check had its BITMAP bit set (R177). -/
theorem bitmapBit_of_check_ok {s : State} {f : Fragment} (h : checkFragment s = .ok f) :
    bitmapBit s.bitmap f.index = true := by
  obtain ⟨-, -, -, -, -, hbit⟩ := checkFragment_ok h
  exact hbit

/-! ### R41 -/

theorem State.consistent_reset : State.reset.Consistent :=
  ⟨by decide, by decide, by decide, by decide, by decide, by decide, by decide, by decide⟩

/-- In one phase nothing is left to show of another. -/
theorem not_of_st {a p q : Phase} {P : Prop} (hst : a = p) (h : a = q) (hne : p ≠ q := by decide) : P :=
  absurd (hst.symm.trans h) hne

theorem Observed.keeps_consistent {len : Len} {s t : State} (hs : s.Consistent) (h : Observed len s t) :
    t.Consistent := by
  obtain ⟨hlead, hmagic, hprefix, hsequence, hlengths, hdone, hzero, hbitmap⟩ := hs
  cases h with
  | leadKept p e hst =>
    exact ⟨hlead, not_of_st hst, hprefix, hsequence, hlengths, hdone, hzero, hbitmap⟩
  | leadAdvance p hst hpush hfull =>
    obtain ⟨-, hpfx, hseq, -⟩ := hlead hst
    have hflag : s.done ≠ true := fun h => not_of_st hst (hdone.2 h)
    exact ⟨nofun, fun _ => ⟨hpfx, hseq, BitVec.eq_of_toNat_eq (count_of_push_full hpush hfull)⟩, nofun, nofun, nofun,
      ⟨nofun, fun h => absurd h hflag⟩, nofun, hbitmap⟩
  | magicKept p e hst =>
    exact ⟨not_of_st hst, hmagic, not_of_st hst, hsequence, hlengths, hdone, hzero, hbitmap⟩
  | magicAdvance p hst hpush hfull =>
    obtain ⟨-, hseq, -⟩ := hmagic hst
    have hflag : s.done ≠ true := fun h => not_of_st hst (hdone.2 h)
    refine ⟨nofun, nofun, fun _ => ⟨hseq, BitVec.eq_of_toNat_eq (count_of_push_full hpush hfull)⟩, nofun,
      fun _ => ⟨fragmentCount_toNat _, lastFragmentBytes_toNat _⟩, ⟨nofun, fun h => absurd h hflag⟩, nofun, ?_⟩
    have hpos := Nat.two_pow_pos (fragmentCount (headerValue p.window)).toNat
    exact fullBitmap_fragmentCount_toNat (headerValue p.window) ▸ Nat.sub_lt hpos Nat.one_pos
  | prefixKept p e hst =>
    exact ⟨not_of_st hst, not_of_st hst, hprefix, fun h => absurd h (by simp [hst]), hlengths, hdone, hzero, hbitmap⟩
  | prefixAdvance p hst hpush hfull =>
    have hflag : s.done ≠ true := fun h => not_of_st hst (hdone.2 h)
    exact ⟨nofun, nofun, nofun, fun _ => BitVec.eq_of_toNat_eq (count_of_push_full hpush hfull),
      fun _ => hlengths (.inl hst), ⟨nofun, fun h => absurd h hflag⟩, nofun, hbitmap⟩
  | sequenceKept p e hst =>
    exact ⟨not_of_st hst, not_of_st hst, not_of_st hst, hsequence, hlengths, hdone, hzero, hbitmap⟩
  | sequenceAccept p f m b hst hpush hfull hcheck hwrite hclear =>
    refine ⟨not_of_st hst, not_of_st hst, not_of_st hst, hsequence, hlengths, hdone, not_of_st hst, ?_⟩
    have hfewer := clearBitmapBit_toNat (bitmapBit_of_check_ok hcheck)
    rw [hclear]
    exact (hfewer.trans_le (Nat.sub_le ..)).trans_lt hbitmap
  | sequenceComplete p f m c hst =>
    exact ⟨nofun, nofun, nofun, fun _ => hsequence (.inl hst), fun _ => hlengths (.inr (.inl hst)),
      ⟨fun _ => rfl, fun _ => rfl⟩, fun _ => rfl, Nat.two_pow_pos _⟩
  | done hst => exact ⟨hlead, hmagic, hprefix, hsequence, hlengths, hdone, hzero, hbitmap⟩

theorem State.Consistent.withPorts {s : State} (h : s.Consistent) (c : Byte) (r : ReadData) (g : Bool) (e : Evt)
    (o : Option Credential) (ws : List CmdWord) : (s.withPorts c r g e o ws).Consistent :=
  ⟨h.lead, h.magic, h.prefixCode, h.sequenceOrDone, h.lengths, h.doneFlag, h.doneBitmap, h.bitmap⟩

/-- Settles O45: a phase is entered with its window's counter at its width and the next windows empty, and BITMAP only
loses bits once the header has set it. -/
theorem everyStepKeepsConsistency : Obligations.EveryStepKeepsConsistency :=
  fun _ _ => step_keeps (fun _ c r g e o ws h => h.withPorts c r g e o ws) State.consistent_reset
    fun _ _ _ => Observed.keeps_consistent

/-! ### The legal ranges (R23, R26, R27, R29, R30) -/

theorem State.inRange_reset : State.reset.InRange := ⟨by decide, by decide, by decide, by decide, by decide⟩

theorem Observed.keeps_inRange {len : Len} {s t : State} (hs : s.InRange) (h : Observed len s t) : t.InRange := by
  obtain ⟨hlead, hmag, hpfx, hseq, hq⟩ := hs
  cases h with
  | leadKept p e hst hpush hkept => exact ⟨push_count_le hpush (by decide) hlead, hmag, hpfx, hseq, hq⟩
  | leadAdvance p hst hpush hfull hvalid => exact ⟨push_count_le hpush (by decide) hlead, hmag, hpfx, hseq, hq⟩
  | magicKept p e hst hpush hkept => exact ⟨hlead, push_count_le hpush (by decide) hmag, hpfx, hseq, hq⟩
  | magicAdvance p hst hpush hfull hvalid =>
    refine ⟨hlead, push_count_le hpush (by decide) hmag, hpfx, hseq, ?_⟩
    change (fragmentCount _).toNat ≤ 64
    rw [fragmentCount_toNat]
    omega
  | prefixKept p e hst hpush hkept => exact ⟨hlead, hmag, push_count_le hpush (by decide) hpfx, hseq, hq⟩
  | prefixAdvance p hst hpush hfull hvalid => exact ⟨hlead, hmag, push_count_le hpush (by decide) hpfx, hseq, hq⟩
  | sequenceKept p e hst hpush hkept => exact ⟨hlead, hmag, hpfx, push_count_le hpush (by decide) hseq, hq⟩
  | sequenceAccept p f m b hst hpush => exact ⟨hlead, hmag, hpfx, push_count_le hpush (by decide) hseq, hq⟩
  | sequenceComplete p f m c hst hpush => exact ⟨hlead, hmag, hpfx, push_count_le hpush (by decide) hseq, hq⟩
  | done hst => exact ⟨hlead, hmag, hpfx, hseq, hq⟩

/-- Settles O46: a push moves its counter to its window's width and no further, and a byte counts at most 64
fragments. -/
theorem everyStepKeepsLegalRanges : Obligations.EveryStepKeepsLegalRanges :=
  fun _ _ => step_keeps (fun _ _ _ _ _ _ _ h => ⟨h.leadCnt, h.magCnt, h.pfxCnt, h.seqCnt, h.seqQ⟩)
    State.inRange_reset fun _ _ _ => Observed.keeps_inRange

/-! ### R40 -/

theorem State.unfilledSlotsZero_reset : State.reset.UnfilledSlotsZero :=
  ⟨by decide, by decide, by decide, by decide⟩

theorem Observed.keeps_unfilledSlotsZero {len : Len} {s t : State} (hs : s.UnfilledSlotsZero) (h : Observed len s t) :
    t.UnfilledSlotsZero := by
  obtain ⟨hlead, hmag, hpfx, hseqw⟩ := hs
  cases h with
  | leadKept p e hst hpush hkept => exact ⟨push_unfilled_zero hpush (by decide) hlead, hmag, hpfx, hseqw⟩
  | leadAdvance p hst hpush hfull hvalid => exact ⟨push_unfilled_zero hpush (by decide) hlead, hmag, hpfx, hseqw⟩
  | magicKept p e hst hpush hkept => exact ⟨hlead, push_unfilled_zero hpush (by decide) hmag, hpfx, hseqw⟩
  | magicAdvance p hst hpush hfull hvalid => exact ⟨hlead, push_unfilled_zero hpush (by decide) hmag, hpfx, hseqw⟩
  | prefixKept p e hst hpush hkept => exact ⟨hlead, hmag, push_unfilled_zero hpush (by decide) hpfx, hseqw⟩
  | prefixAdvance p hst hpush hfull hvalid => exact ⟨hlead, hmag, push_unfilled_zero hpush (by decide) hpfx, hseqw⟩
  | sequenceKept p e hst hpush hkept => exact ⟨hlead, hmag, hpfx, push_unfilled_zero hpush (by decide) hseqw⟩
  | sequenceAccept p f m b hst hpush => exact ⟨hlead, hmag, hpfx, push_unfilled_zero hpush (by decide) hseqw⟩
  | sequenceComplete p f m c hst hpush => exact ⟨hlead, hmag, hpfx, push_unfilled_zero hpush (by decide) hseqw⟩
  | done hst => exact ⟨hlead, hmag, hpfx, hseqw⟩

/-- Settles O47: a push keeps the unfilled slots of its window, and the other windows stay. -/
theorem everyStepKeepsUnfilledSlotsZero : Obligations.EveryStepKeepsUnfilledSlotsZero :=
  fun _ _ => step_keeps (fun _ _ _ _ _ _ _ h => ⟨h.lead, h.mag, h.pfx, h.seqw⟩)
    State.unfilledSlotsZero_reset fun _ _ _ => Observed.keeps_unfilledSlotsZero

/-! ### R24 and R33 -/

theorem State.flagsTrackPhase_reset : State.reset.FlagsTrackPhase := ⟨by decide, by decide⟩

theorem Observed.keeps_flagsTrackPhase {len : Len} {s t : State} (hs : s.FlagsTrackPhase) (h : Observed len s t) :
    t.FlagsTrackPhase := by
  obtain ⟨hvalid, hdone⟩ := hs
  cases h with
  | leadAdvance p hst | magicAdvance p hst | prefixAdvance p hst =>
    constructor <;> simp [hvalid, hdone, hst]
  | sequenceComplete p f m c hst => constructor <;> simp [hvalid, hst]
  | _ => exact ⟨hvalid, hdone⟩

/-- Settles O48: LEAD_VALID rises as LEAD is left, and DONE as DONE is entered. -/
theorem everyStepKeepsFlagsTrackingPhase : Obligations.EveryStepKeepsFlagsTrackingPhase :=
  fun _ _ => step_keeps (fun _ _ _ _ _ _ _ h => ⟨h.leadValid, h.done⟩) State.flagsTrackPhase_reset
    fun _ _ _ => Observed.keeps_flagsTrackPhase

/-! ### The payload's canonical form (R60, log 5) -/

theorem Observed.keeps_payload_wf {len : Len} {s t : State} (hs : s.payload.wf = true) (h : Observed len s t) :
    t.payload.wf = true := by
  cases h with
  | sequenceAccept p f m b hst hpush hfull hcheck hwrite => exact memWriteBytes_wf hwrite hs
  | sequenceComplete p f m c hst hpush hfull hcheck hwrite => exact memWriteBytes_wf hwrite hs
  | _ => exact hs

/-- Settles O49: only an accepted fragment is written, by writes that each keep the form. -/
theorem everyStepKeepsThePayloadCanonical : Obligations.EveryStepKeepsThePayloadCanonical :=
  fun _ _ => step_keeps (P := fun s => s.payload.wf = true) (fun _ _ _ _ _ _ _ => id) rfl
    fun _ _ _ => Observed.keeps_payload_wf

/-! ### Bytes past TOTAL_LEN and of missing fragments (R31, R32, R204) -/

/-- The BITMAP without a bit reads as before at the others. -/
theorem clearBitmapBit_getLsbD (b : BitVec 64) (i : BitVec 7) (j : Nat) :
    (clearBitmapBit b i).getLsbD j = (b.getLsbD j && decide (j ≠ i.toNat)) := by
  have hrange : b.getLsbD j = true → j < 64 := BitVec.lt_of_getLsbD
  simp only [clearBitmapBit, BitVec.getLsbD_and, BitVec.getLsbD_not, BitVec.getLsbD_shiftLeft, BitVec.getLsbD_one]
  cases hb : b.getLsbD j
  · rfl
  · have hj := hrange hb
    by_cases hji : j = i.toNat
    · simp [hji]
    · simp [hj, hji]
      omega

/-- A fragment's bytes lie below TOTAL_LEN: only the last one is short, by what TOTAL_LEN leaves (R172). -/
theorem fragment_end_le {q r total idx k : Nat} (hq : q = (total + 3) / 4) (hr : r = total % 4) (hidx : idx < q)
    (hk : k < fragmentSize q r idx) : k < 4 ∧ 4 * idx + k < total := by
  unfold fragmentSize at hk
  split at hk <;> omega

/-- A byte that an accepted fragment leaves nonzero is its own, or stood there before. -/
theorem payloadAccepted_of_accept {s : State} {f : Fragment} {m : Memory}
    (hlengths : s.seqQ.toNat = (s.totalLen.toNat + 3) / 4 ∧ s.seqR.toNat = s.totalLen.toNat % 4)
    (hwf : s.payload.wf = true)
    (hbyte : ∀ a, s.payload.peek a ≠ 0 → a < s.totalLen.toNat ∧ s.bitmap.getLsbD (a / 4) = false)
    (hcheck : checkFragment s = .ok f)
    (hwrite : memWriteBytes s.payload (4 * f.index.toNat) f.bytes = .ok m) (a : Nat) (ha : m.peek a ≠ 0) :
    a < s.totalLen.toNat ∧ (clearBitmapBit s.bitmap f.index).getLsbD (a / 4) = false := by
  obtain ⟨hq, hr⟩ := hlengths
  obtain ⟨-, -, -, -, hidx, -⟩ := checkFragment_ok hcheck
  have hlen : f.bytes.length = fragmentSize s.seqQ.toNat s.seqR.toNat f.index.toNat :=
    (checkFragment_bytes_length hcheck).trans (requiredSlots_eq ..)
  rw [clearBitmapBit_getLsbD]
  by_cases houtside : a < 4 * f.index.toNat ∨ 4 * f.index.toNat + f.bytes.length ≤ a
  · rw [peek_memWriteBytes_of_outside hwf hwrite houtside] at ha
    obtain ⟨htotal, hbit⟩ := hbyte a ha
    exact ⟨htotal, by rw [hbit]; rfl⟩
  · obtain ⟨hfour, htotal⟩ := fragment_end_le (k := a - 4 * f.index.toNat) hq hr hidx (by omega)
    have hfragment : a / 4 = f.index.toNat := by omega
    exact ⟨by omega, by simp [hfragment]⟩

theorem State.payloadAccepted_reset : State.reset.PayloadAccepted := ⟨fun _ => rfl, fun _ h => absurd rfl h⟩

theorem Observed.keeps_payloadAccepted {len : Len} {s t : State} (hc : s.Consistent) (hwf : s.payload.wf = true)
    (hs : s.PayloadAccepted) (h : Observed len s t) : t.PayloadAccepted := by
  obtain ⟨hempty, hbyte⟩ := hs
  cases h with
  | leadAdvance p hst => exact ⟨fun _ => hempty (.inl hst), hbyte⟩
  | magicAdvance p hst =>
    have hnil := hempty (.inr (.inl hst))
    exact ⟨fun _ => hnil, fun a ha => absurd (congrArg (Memory.peek · a) hnil) ha⟩
  | prefixAdvance p hst => exact ⟨nofun, hbyte⟩
  | sequenceAccept p f m b hst hpush hfull hcheck hwrite hclear =>
    subst hclear
    exact ⟨fun h => absurd h (by simp [hst]), payloadAccepted_of_accept (s := (s.withSeqw p).withOut none)
      (hc.lengths (.inr (.inl hst))) hwf hbyte hcheck hwrite⟩
  | sequenceComplete p f m c hst hpush hfull hcheck hwrite hclear =>
    refine ⟨nofun, fun a ha => ?_⟩
    obtain ⟨htotal, -⟩ := payloadAccepted_of_accept (s := (s.withSeqw p).withOut none)
      (hc.lengths (.inr (.inl hst))) hwf hbyte hcheck hwrite a ha
    exact ⟨htotal, BitVec.getLsbD_zero⟩
  | _ => exact ⟨hempty, hbyte⟩

/-- Settles O50: an accepted fragment writes its own bytes and takes its own bit off BITMAP. -/
theorem everyStepKeepsOnlyAcceptedBytes : Obligations.EveryStepKeepsOnlyAcceptedBytes := by
  intro s t hc hwf hs h
  obtain ⟨-, -, hkept⟩ := step_keeps (P := fun s => s.Consistent ∧ s.payload.wf = true ∧ s.PayloadAccepted)
    (fun _ c r g e o ws ⟨hc, hwf, hs⟩ => ⟨hc.withPorts c r g e o ws, hwf, ⟨hs.empty, hs.byte⟩⟩)
    ⟨State.consistent_reset, rfl, State.payloadAccepted_reset⟩
    (fun _ _ _ ⟨hc, hwf, hs⟩ hobserved =>
      ⟨hobserved.keeps_consistent hc, hobserved.keeps_payload_wf hwf, hobserved.keeps_payloadAccepted hc hwf hs⟩)
    ⟨hc, hwf, hs⟩ h
  exact hkept

/-! ### The step output (R39) -/

/-- A completing OBSERVE outputs the credential view of the state it leaves. -/
theorem Observed.outputSound {len : Len} {s t : State} (h : Observed len s t) : t.OutputSound := by
  cases h with
  | sequenceComplete p f m c hst hpush hfull hcheck hwrite hclear hcredential =>
    rintro _ ⟨⟩
    exact ⟨rfl, rfl, (credential_congr rfl rfl rfl).trans hcredential⟩
  | _ => exact nofun

theorem exec_outputSound {i : Instr} {s t : State} (h : exec i s = .next t) : t.OutputSound := by
  obtain ⟨len, -, hobserved⟩ | ⟨-, rfl⟩ | ⟨-, ht⟩ := exec_cases h
  · exact hobserved.outputSound
  · exact nofun
  · rw [ht]
    exact nofun

/-- Settles O51: a waiting step and an illegal word output nothing, and a command only where it completes the decode. -/
theorem everyStepOutputIsACompletedCredential : Obligations.EveryStepOutputIsACompletedCredential := by
  intro s t h
  obtain ⟨-, hstep⟩ | ⟨w, ws, i, -, -, hstep⟩ | ⟨w, ws, e, -, -, hstep⟩ := step_cases s <;> rw [hstep] at h
  · cases h
    exact nofun
  · exact exec_outputSound h
  · cases h
    exact nofun

/-- Settles O44: each invariant at reset, where every window is empty, BITMAP is 0 and no payload byte is listed. -/
theorem resetMeetsTheInvariants : Obligations.ResetMeetsTheInvariants :=
  ⟨State.consistent_reset, State.inRange_reset, State.unfilledSlotsZero_reset, State.flagsTrackPhase_reset,
    State.payloadAccepted_reset, nofun, rfl⟩

end Sys2Proof.Machine

/-! The statements of 40_crc8.md section 1 and of CRCBYTE streams (R100, R101, R104). -/

namespace Sys2Proof.Machine

/-! ### The fold over the bytes (R101) -/

theorem crc8_append_singleton (bytes : List Byte) (b : Byte) : crc8 (bytes ++ [b]) = crc8Update (crc8 bytes) b :=
  List.foldl_concat crc8Update _ b bytes

/-- Settles O12: the fold starts at 0x00 and takes one byte more at its end. -/
theorem crc8FoldsFromZero : Obligations.Crc8FoldsFromZero :=
  ⟨rfl, by decide, crc8_append_singleton, by decide +kernel⟩

/-! ### The reduction step is linear and loses nothing (R100) -/

/-- A reduction step, by the bit that is shifted out. -/
theorem crcStep_of_bit_clear {c : Byte} (h : c.getLsbD 0 = false) : crcStep c = c >>> 1 := by
  rw [crcStep, h]
  rfl

theorem crcStep_of_bit_set {c : Byte} (h : c.getLsbD 0 = true) : crcStep c = (c >>> 1) ^^^ Config.poly := by
  rw [crcStep, h]
  rfl

theorem crcStep_xor (a b : Byte) : crcStep (a ^^^ b) = crcStep a ^^^ crcStep b := by
  have hbit : (a ^^^ b).getLsbD 0 = (a.getLsbD 0 ^^ b.getLsbD 0) := BitVec.getLsbD_xor
  have hshift : (a ^^^ b) >>> 1 = a >>> 1 ^^^ b >>> 1 := BitVec.ushiftRight_xor_distrib ..
  cases ha : a.getLsbD 0 <;> cases hb : b.getLsbD 0 <;> rw [ha, hb] at hbit
  · rw [crcStep_of_bit_clear hbit, crcStep_of_bit_clear ha, crcStep_of_bit_clear hb, hshift]
  · rw [crcStep_of_bit_set hbit, crcStep_of_bit_clear ha, crcStep_of_bit_set hb, hshift, BitVec.xor_assoc]
  · rw [crcStep_of_bit_set hbit, crcStep_of_bit_set ha, crcStep_of_bit_clear hb, hshift]
    ac_rfl
  · rw [crcStep_of_bit_clear hbit, crcStep_of_bit_set ha, crcStep_of_bit_set hb, hshift, BitVec.xor_assoc (a >>> 1),
      BitVec.xor_comm Config.poly, BitVec.xor_assoc, BitVec.xor_self, BitVec.xor_zero]

theorem crcSteps_xor (n : Nat) (a b : Byte) : crcSteps n (a ^^^ b) = crcSteps n a ^^^ crcSteps n b := by
  induction n generalizing a b with
  | zero => rfl
  | succ n ih => simp only [crcSteps, crcStep_xor, ih]

/-- Only 0 reduces to 0: a bit shifted out would stand at the top, and without it the shift loses nothing. -/
theorem eq_zero_of_crcStep_eq_zero {c : Byte} (h : crcStep c = 0) : c = 0 := by
  cases hbit : c.getLsbD 0 with
  | true =>
    rw [crcStep_of_bit_set hbit] at h
    replace h : c >>> 1 = Config.poly := BitVec.xor_eq_zero_iff.1 h
    have htop : (c >>> 1).toNat < 2 ^ 7 := by
      rw [BitVec.toNat_ushiftRight, Nat.shiftRight_eq_div_pow]
      omega
    rw [h] at htop
    exact absurd htop (by decide)
  | false =>
    rw [crcStep_of_bit_clear hbit] at h
    have heven : c.toNat % 2 = 0 := Nat.mod_two_ne_one.1 fun hodd => by
      rw [show c.getLsbD 0 = decide (c.toNat % 2 = 1) from Nat.testBit_zero _, hodd] at hbit
      cases hbit
    have hhalf : c.toNat / 2 = 0 := (BitVec.toNat_ushiftRight ..).symm.trans (congrArg BitVec.toNat h)
    exact BitVec.eq_of_toNat_eq (by change c.toNat = 0; omega)

theorem eq_zero_of_crcSteps_eq_zero (n : Nat) {c : Byte} (h : crcSteps n c = 0) : c = 0 := by
  induction n generalizing c with
  | zero => exact h
  | succ n ih => exact eq_zero_of_crcStep_eq_zero (ih h)

theorem crcSteps_injective (n : Nat) : Function.Injective (crcSteps n) := by
  intro a b h
  have hzero : crcSteps n (a ^^^ b) = 0 := by rw [crcSteps_xor, h, BitVec.xor_self]; rfl
  exact BitVec.xor_eq_zero_iff.1 (eq_zero_of_crcSteps_eq_zero n hzero)

theorem crc8Update_injective (acc : Byte) : Function.Injective (crc8Update acc) :=
  (crcSteps_injective 8).comp fun _ _ h => (BitVec.xor_right_inj acc).1 h

/-- Settles O13: the fold splits, the update reads only the exclusive-or of its operands, and the reduction is linear
and one to one. -/
theorem crcAlgebra : Obligations.CrcAlgebra := by
  refine ⟨fun xs ys => List.foldl_append, fun a b => ?_, fun a₁ a₂ b₁ b₂ => ?_, fun acc => ?_⟩
  · rw [crc8Update, crc8Update, BitVec.xor_zero]
  · have hsplit : (a₁ ^^^ a₂) ^^^ (b₁ ^^^ b₂) = (a₁ ^^^ b₁) ^^^ (a₂ ^^^ b₂) := by ac_rfl
    rw [crc8Update, hsplit, crcSteps_xor]
    rfl
  · exact Finite.injective_iff_bijective.1 (crc8Update_injective acc)

/-! ### The reflected form (93_implementation_defined.md G1) -/

theorem reverse_xor (a b : Byte) : (a ^^^ b).reverse = a.reverse ^^^ b.reverse := by
  ext i hi
  simp [BitVec.getElem_reverse]

/-- Shifting right is shifting the reflected byte left. -/
theorem reverse_ushiftRight_one (c : Byte) : (c >>> 1).reverse = c.reverse <<< 1 := by
  ext i hi
  simp only [BitVec.getElem_reverse, BitVec.getMsbD_ushiftRight, BitVec.getElem_shiftLeft, hi, decide_true,
    Bool.true_and]

theorem crcStep_reverse (c : Byte) : (crcStep c).reverse = crcForwardStep c.reverse := by
  have hmsb : c.reverse.msb = c.getLsbD 0 := BitVec.msb_reverse
  cases hbit : c.getLsbD 0 <;> rw [hbit] at hmsb
  · rw [crcStep_of_bit_clear hbit, reverse_ushiftRight_one, crcForwardStep, hmsb]
    rfl
  · rw [crcStep_of_bit_set hbit, reverse_xor, reverse_ushiftRight_one, crcForwardStep, hmsb]
    rfl

theorem crcSteps_reverse (n : Nat) (c : Byte) : (crcSteps n c).reverse = crcForwardSteps n c.reverse := by
  induction n generalizing c with
  | zero => rfl
  | succ n ih => rw [crcSteps, crcForwardSteps, ih, crcStep_reverse]

/-- Settles O14: each reduction step, reflected, is a step of polynomial 0x31, whose reflection is 0x8C. -/
theorem crcIsReflectedPolynomial31 : Obligations.CrcIsReflectedPolynomial31 := by
  intro acc b
  rw [crc8Update, crcSteps_reverse, reverse_xor]

/-! ### A stream of CRCBYTEs (R104) -/

theorem perform_crcbytes (bytes : List Byte) (s : State) (hout : s.out = none) :
    perform (bytes.map .crcbyte) s = .next { s with crcAcc := bytes.foldl crc8Update s.crcAcc } := by
  induction bytes generalizing s with
  | nil => rfl
  | cons b bytes ih =>
    rw [List.map_cons, perform_cons_of_next (exec_crcbyte b s), ih _ rfl]
    simp only [State.withCrcAcc, State.withOut, hout, List.foldl_cons]

/-- Settles O54: CRCCLR puts the fold's start value into CRC_ACC, and each CRCBYTE takes the fold one byte on. -/
theorem crcbyteStreamGivesTheCrc8 : Obligations.CrcbyteStreamGivesTheCrc8 := by
  intro bytes s
  rw [perform_crcclr_cons, perform_crcbytes bytes _ rfl]
  rfl

end Sys2Proof.Machine

/-! The statements of 20_memory.md section 1: what is written reads back, and the canonical form is unique (R60,
R61). -/

namespace Sys2Proof.Machine

theorem memRead_of_ge {m : Memory} {a : Nat} (h : 256 ≤ a) : memRead m a = .error (.payloadAddress a) :=
  if_neg (Nat.not_lt_of_le h)

theorem memWrite_of_ge {m : Memory} {a : Nat} {v : Byte} (h : 256 ≤ a) : memWrite m a v = .error (.payloadAddress a) :=
  if_neg (Nat.not_lt_of_le h)

/-- Settles O52: a run of writes inside the buffer answers, its bytes read back, and the others stay. -/
theorem payloadReadsBackWhatIsWritten : Obligations.PayloadReadsBackWhatIsWritten := by
  refine ⟨fun m a bytes hwf hinside => ?_, fun m a v ha => ⟨memRead_of_ge ha, memWrite_of_ge ha⟩⟩
  obtain ⟨m', hwrite⟩ := memWriteBytes_answers (m := m) hinside
  refine ⟨m', hwrite, memWriteBytes_wf hwrite hwf, fun k hk => ?_, fun b hb => ?_⟩
  · rw [memRead_of_lt (by omega), peek_memWriteBytes_of_inside hwf hwrite hk]
  · exact peek_memWriteBytes_of_outside hwf hwrite hb

/-- A canonical memory that reads 0 everywhere lists nothing: its first entry would read otherwise. -/
theorem Memory.eq_nil_of_peek_eq_zero {lo : Nat} {m : Memory} (h : Memory.wfFrom lo m = true)
    (hzero : ∀ a, m.peek a = 0) : m = [] := by
  cases m with
  | nil => rfl
  | cons c m =>
    obtain ⟨k, u⟩ := c
    obtain ⟨-, -, hu, -⟩ := (Memory.wfFrom_cons ..).1 h
    exact absurd ((if_pos rfl).symm.trans (hzero k)) hu

/-- The first entry of a canonical memory is the first address that does not read 0. -/
theorem Memory.head_le_of_peek_ne_zero {lo k a : Nat} {u : Byte} {m : Memory}
    (h : Memory.wfFrom lo ((k, u) :: m) = true) (ha : Memory.peek ((k, u) :: m) a ≠ 0) : k ≤ a := by
  obtain ⟨-, hk, hu, hm⟩ := (Memory.wfFrom_cons ..).1 h
  by_contra hlt
  exact ha (Memory.peek_eq_zero_of_lt ((Memory.wfFrom_cons k ..).2 ⟨le_rfl, hk, hu, hm⟩) (Nat.lt_of_not_le hlt))

theorem Memory.peek_head (k : Nat) (u : Byte) (m : Memory) : Memory.peek ((k, u) :: m) k = u := if_pos rfl

/-- A canonical memory is known by what it reads: the first entries agree, and so do the rests. -/
theorem Memory.eq_of_peek_eq {lo lo' : Nat} {m m' : Memory} (h : Memory.wfFrom lo m = true)
    (h' : Memory.wfFrom lo' m' = true) (hpeek : ∀ a, m.peek a = m'.peek a) : m = m' := by
  induction m generalizing lo lo' m' with
  | nil => exact (Memory.eq_nil_of_peek_eq_zero h' fun a => (hpeek a).symm).symm
  | cons c m ih =>
    obtain ⟨k, u⟩ := c
    cases m' with
    | nil => exact Memory.eq_nil_of_peek_eq_zero h hpeek
    | cons c' m' =>
      obtain ⟨k', u'⟩ := c'
      obtain ⟨-, -, hu, hm⟩ := (Memory.wfFrom_cons ..).1 h
      obtain ⟨-, -, hu', hm'⟩ := (Memory.wfFrom_cons ..).1 h'
      have hle : k' ≤ k := Memory.head_le_of_peek_ne_zero h' (by rwa [← hpeek, Memory.peek_head])
      have hge : k ≤ k' := Memory.head_le_of_peek_ne_zero h (by rwa [hpeek, Memory.peek_head])
      obtain rfl : k = k' := Nat.le_antisymm hge hle
      obtain rfl : u = u' := by simpa only [Memory.peek_head] using hpeek k
      refine congrArg _ (ih hm hm' fun a => ?_)
      by_cases ha : k = a
      · rw [← ha, Memory.peek_eq_zero_of_lt hm (Nat.lt_succ_self k), Memory.peek_eq_zero_of_lt hm' (Nat.lt_succ_self k)]
      · simpa only [Memory.peek_cons, if_neg ha] using hpeek a

/-- Settles O53: both memories are canonical from address 0. -/
theorem equalReadsMakeEqualPayloads : Obligations.EqualReadsMakeEqualPayloads :=
  fun _ _ => Memory.eq_of_peek_eq

end Sys2Proof.Machine

/-! Statements about RESET (R400), READ (R204) and the adjusted length (00_scope.md R9, R140). -/

namespace Sys2Proof.Machine

/-- Settles O17: State.reset holds R400's values, and RESET gives it with the words still presented. -/
theorem resetGivesTheResetValues : Obligations.ResetGivesTheResetValues :=
  ⟨⟨rfl, rfl, rfl, rfl, rfl, rfl, rfl, rfl, rfl, rfl, rfl, rfl, rfl, rfl, rfl, rfl, rfl, rfl, fun _ => rfl, rfl, rfl,
    rfl, rfl, rfl⟩, exec_reset⟩

/-- No location of the status map shows RDATA or the step output (R42). -/
theorem statusMap_withRdata_withOut (s : State) (v : ReadData) (o : Option Credential) (addr : StatusAddr) :
    statusMap ((s.withRdata v).withOut o) addr = statusMap s addr := by
  unfold statusMap
  split
  · rfl
  · next loc _ => cases loc <;> rfl

/-- Settles O19: the second READ finds in the status map what the first found. -/
theorem readRepeatedIsReadOnce : Obligations.ReadRepeatedIsReadOnce := by
  intro addr s
  obtain ⟨v, hv, hread⟩ := exec_read addr s
  have hagain : exec (.read addr) ((s.withRdata v).withOut none) = .next ((s.withRdata v).withOut none) :=
    execRead_of_ok ((statusMap_withRdata_withOut ..).trans hv)
  rw [perform_cons_of_next hread, perform_cons_of_next hagain, perform_cons_of_next hread]

/-- Settles O23: 2^9 divides 2^16, so a difference modulo 2^16 and on integers agree modulo 2^9. -/
theorem adjustedLengthAgreesOnNineBits : Obligations.AdjustedLengthAgreesOnNineBits := by
  intro first len
  refine ⟨?_, rfl⟩
  have hone : (1 : Len).toNat = 1 := rfl
  rw [BitVec.toNat_sub, BitVec.toNat_sub, hone]
  omega

end Sys2Proof.Machine

/-! What decoding does not read (R12, R35 to R39): the order of presented commands, and the independence of OBSERVE from
the ports and of decoding from the commands of the ports. -/

namespace Sys2Proof.Machine

/-! ### Commands on states that differ in the ports alone -/

/-- An outcome of OBSERVE stays one whatever the ports hold, and passes them through. -/
theorem Observed.withPorts {len : Len} {s t : State} (h : Observed len s t) (c : Byte) (r : ReadData) (g : Bool)
    (e : Evt) (o : Option Credential) (ws : List CmdWord) :
    Observed len (s.withPorts c r g e o ws) (t.withPorts c r g t.evt t.out ws) := by
  cases h with
  | leadKept p e hst hpush hkept => exact .leadKept p e hst hpush hkept
  | leadAdvance p hst hpush hfull hvalid => exact .leadAdvance p hst hpush hfull hvalid
  | magicKept p e hst hpush hkept => exact .magicKept p e hst hpush hkept
  | magicAdvance p hst hpush hfull hvalid => exact .magicAdvance p hst hpush hfull hvalid
  | prefixKept p e hst hpush hkept => exact .prefixKept p e hst hpush hkept
  | prefixAdvance p hst hpush hfull hvalid => exact .prefixAdvance p hst hpush hfull hvalid
  | sequenceKept p e hst hpush hkept => exact .sequenceKept p e hst hpush hkept
  | sequenceAccept p f m b hst hpush hfull hcheck hwrite hclear hmore =>
    exact .sequenceAccept p f m b hst hpush hfull hcheck hwrite hclear hmore
  | sequenceComplete p f m c hst hpush hfull hcheck hwrite hclear hcredential =>
    exact .sequenceComplete p f m c hst hpush hfull hcheck hwrite hclear hcredential
  | done hst => exact .done hst

theorem Observed.ports_eq {len : Len} {s t : State} (h : Observed len s t) :
    t.crcAcc = s.crcAcc ∧ t.rdata = s.rdata ∧ t.illegal = s.illegal ∧ t.input = s.input := by
  cases h <;> exact ⟨rfl, rfl, rfl, rfl⟩

/-- Settles O42: the outcome is one whatever the ports hold. -/
theorem observeIgnoresThePorts : Obligations.ObserveIgnoresThePorts := by
  intro s t len c r g e h
  have hobserved := exec_observe_iff.1 h
  obtain ⟨-, -, -, hinput⟩ := hobserved.ports_eq
  have hpassed : t.withPorts c r g t.evt t.out s.input = { t with crcAcc := c, rdata := r, illegal := g } := by
    rw [← hinput]
    rfl
  exact hpassed ▸ (hobserved.withPorts c r g e s.out s.input).exec_eq

theorem statusMap_withInput (s : State) (ws : List CmdWord) (addr : StatusAddr) :
    statusMap (s.withInput ws) addr = statusMap s addr := by
  unfold statusMap
  split
  · rfl
  · next loc _ => cases loc <;> rfl

/-- No command reads the words that wait behind it, and every command passes them on (R12, log 1). -/
theorem exec_withInput {i : Instr} {s t : State} (h : exec i s = .next t) (ws : List CmdWord) :
    exec i (s.withInput ws) = .next (t.withInput ws) := by
  cases i with
  | observe len =>
    have hobserved := exec_observe_iff.1 h
    obtain ⟨hcrc, hrdata, hillegal, -⟩ := hobserved.ports_eq
    have hpassed : t.withPorts s.crcAcc s.rdata s.illegal t.evt t.out ws = t.withInput ws := by
      rw [← hcrc, ← hrdata, ← hillegal]
      rfl
    exact hpassed ▸ (hobserved.withPorts s.crcAcc s.rdata s.illegal s.evt s.out ws).exec_eq
  | reset => rw [exec_reset] at h; cases h; rfl
  | crcclr => rw [exec_crcclr] at h; cases h; rfl
  | crcbyte b => rw [exec_crcbyte] at h; cases h; rfl
  | read addr =>
    obtain ⟨v, hv, hread⟩ := exec_read addr s
    rw [hread] at h
    cases h
    exact execRead_of_ok ((statusMap_withInput ..).trans hv)

/-! ### Presented commands in order (R12, R69) -/

theorem run_succ_of_step {k : Nat} {s t : State} (h : step s = .next t) :
    Sys2Proof.core.run (k + 1) s = Sys2Proof.core.run k t := by
  have hstep : Sys2Proof.core.step s = .next t := h
  simp only [Host.Core.run, hstep]

/-- Settles O9: a step takes the first encoding off the list and performs its command, which passes the rest on. -/
theorem presentedCommandsRunInOrder : Obligations.PresentedCommandsRunInOrder := by
  intro is rest s
  suffices hrun : ∀ u : State, Sys2Proof.core.run is.length (u.withInput (is.map encode ++ rest)) =
      perform is (u.withInput rest) from hrun s
  intro u
  induction is generalizing u with
  | nil => rfl
  | cons i is ih =>
    obtain ⟨t, ht⟩ := exec_answers i u
    have hstep : step (u.withInput (encode i :: (is.map encode ++ rest))) =
        .next (t.withInput (is.map encode ++ rest)) :=
      (step_of_decode_ok rfl (decode_encode i)).trans (exec_withInput ht _)
    have hperform := perform_cons_of_next (is := is) (exec_withInput ht rest)
    exact (run_succ_of_step hstep).trans ((ih t).trans hperform.symm)

/-! ### What is decoded, with and without the commands of the ports (R36 to R39) -/

theorem decoderView_of_port {i : Instr} {s t : State} (hi : drivesDecoder i = false) (h : exec i s = .next t) :
    t.decoderView = s.decoderView := by
  rw [exec_port hi h]
  rfl

/-- States of one decoder view differ in the ports alone. -/
theorem eq_withPorts_of_decoderView {s u : State} (h : s.decoderView = u.decoderView) :
    u = s.withPorts u.crcAcc u.rdata u.illegal s.evt u.out s.input := by
  cases s
  cases u
  simp only [State.decoderView, State.mk.injEq] at h
  simp only [State.withPorts, State.mk.injEq]
  simp only [h, and_self]

/-- A command that drives the decoder takes states of one decoder view to states of one decoder view. -/
theorem exec_decoderView {i : Instr} {s u t : State} (hi : drivesDecoder i = true)
    (hview : s.decoderView = u.decoderView) (h : exec i s = .next t) :
    ∃ t', exec i u = .next t' ∧ t.decoderView = t'.decoderView := by
  have hports := eq_withPorts_of_decoderView hview
  obtain ⟨len, rfl, hobserved⟩ | ⟨rfl, rfl⟩ | ⟨hport, -⟩ := exec_cases h
  · have hexec := (hobserved.withPorts u.crcAcc u.rdata u.illegal s.evt u.out s.input).exec_eq
    rw [← hports] at hexec
    refine ⟨_, hexec, ?_⟩
    obtain ⟨-, -, -, hinput⟩ := hobserved.ports_eq
    rw [← hinput]
    rfl
  · refine ⟨_, exec_reset u, ?_⟩
    rw [hports]
    rfl
  · rw [hi] at hport
    cases hport

/-- Settles O43: the commands of the ports leave the decoder view, and the others depend on it alone. -/
theorem interleavedPortCommandsNeverChangeDecoding : Obligations.InterleavedPortCommandsNeverChangeDecoding := by
  intro is s
  suffices hviews : ∀ u : State, s.decoderView = u.decoderView → ∃ t t', perform is s = .next t ∧
      perform (is.filter drivesDecoder) u = .next t' ∧ t.decoderView = t'.decoderView from hviews s rfl
  induction is generalizing s with
  | nil => exact fun u hu => ⟨s, u, rfl, rfl, hu⟩
  | cons i is ih =>
    intro u hu
    obtain ⟨t, ht⟩ := exec_answers i s
    rw [perform_cons_of_next ht]
    cases hi : drivesDecoder i with
    | false =>
      rw [List.filter_cons_of_neg (by simp [hi])]
      exact ih t u ((decoderView_of_port hi ht).trans hu)
    | true =>
      obtain ⟨t', ht', hview⟩ := exec_decoderView hi hu ht
      rw [List.filter_cons_of_pos hi, perform_cons_of_next ht']
      exact ih t t' hview

end Sys2Proof.Machine

/-! The statements of 44_control.md section 2, 10_state.md sections 2 to 7 and 43_sequence.md sections 2 and 3: what an
OBSERVE changes by its outcome, the events of the phase transitions, and what stays until RESET. -/

namespace Sys2Proof.Machine

/-! ### EVT and the step output by outcome (R35, R39) -/

/-- The EVT of an OBSERVE that kept its phase's window sliding and changed nothing else (R304). -/
def Evt.IsFillOrRejection (e : Evt) : Prop := e = .fill ∨ e = .noMatch ∨ e = .crcFail ∨ e = .badIndex ∨ e = .dup

theorem isFillOrRejection_of_header_kept {p : Pushed 4} {e : Evt} {valid : Bool}
    (h : (p.full = false ∧ e = .fill) ∨ (p.full = true ∧ valid = false ∧ e = .noMatch)) : e.IsFillOrRejection := by
  obtain ⟨-, rfl⟩ | ⟨-, -, rfl⟩ := h
  · exact .inl rfl
  · exact .inr (.inl rfl)

theorem isFillOrRejection_of_sequence_kept {p : Pushed 6} {s : State} {e : Evt}
    (h : (p.full = false ∧ e = .fill) ∨ (p.full = true ∧ checkFragment s = .error e)) : e.IsFillOrRejection := by
  obtain ⟨-, rfl⟩ | ⟨-, he⟩ := h
  · exact .inl rfl
  · exact .inr (checkFragment_error he)

/-- The kinds of outcome of an OBSERVE, by EVT, with the phases before and after it (R35, R39). -/
inductive ObserveKind (s t : State) : Prop
  | kept (he : t.evt.IsFillOrRejection) (hst : t.st = s.st) (hne : s.st ≠ .done) (hout : t.out = none)
  | advanced (he : t.evt = .advance) (hst : s.st.following = some t.st) (hne : t.st ≠ .done) (hout : t.out = none)
  | accepted (he : t.evt = .accept) (hs : s.st = .sequence) (ht : t.st = .sequence) (hout : t.out = none)
      (hmore : t.bitmap ≠ 0) (hfewer : t.bitmap ≠ s.bitmap)
  | completed (he : t.evt = .complete) (hs : s.st = .sequence) (ht : t.st = .done) (hout : t.out.isSome = true)
      (hzero : t.bitmap = 0) (hlast : s.bitmap ≠ 0)
  | ignored (he : t.evt = .ignored) (hs : s.st = .done) (ht : t.st = .done) (hout : t.out = none)

/-- Clearing a bit that is set changes BITMAP. -/
theorem clearBitmapBit_ne_self {b : BitVec 64} {i : BitVec 7} (h : bitmapBit b i = true) : clearBitmapBit b i ≠ b := by
  intro heq
  have hclear := clearBitmapBit_getLsbD b i i.toNat
  rw [heq, show b.getLsbD i.toNat = true from h] at hclear
  simp at hclear

theorem ne_zero_of_bitmapBit {b : BitVec 64} {i : BitVec 7} (h : bitmapBit b i = true) : b ≠ 0 := by
  rintro rfl
  simp [bitmapBit] at h

theorem Observed.kind {len : Len} {s t : State} (h : Observed len s t) : ObserveKind s t := by
  cases h with
  | leadKept p e hst hpush hkept =>
    exact .kept (isFillOrRejection_of_header_kept hkept) rfl (by simp [hst]) rfl
  | leadAdvance p hst => exact .advanced rfl (by simp [hst, Phase.following]) (by simp) rfl
  | magicKept p e hst hpush hkept =>
    exact .kept (isFillOrRejection_of_header_kept hkept) rfl (by simp [hst]) rfl
  | magicAdvance p hst => exact .advanced rfl (by simp [hst, Phase.following]) (by simp) rfl
  | prefixKept p e hst hpush hkept =>
    exact .kept (isFillOrRejection_of_header_kept hkept) rfl (by simp [hst]) rfl
  | prefixAdvance p hst => exact .advanced rfl (by simp [hst, Phase.following]) (by simp) rfl
  | sequenceKept p e hst hpush hkept =>
    exact .kept (isFillOrRejection_of_sequence_kept hkept) rfl (by simp [hst]) rfl
  | sequenceAccept p f m b hst hpush hfull hcheck hwrite hclear hmore =>
    have hbit : bitmapBit ((s.withSeqw p).withOut none).bitmap f.index = true :=
      bitmapBit_of_check_ok hcheck
    exact .accepted rfl hst hst rfl hmore (hclear.trans_ne (clearBitmapBit_ne_self hbit))
  | sequenceComplete p f m c hst hpush hfull hcheck hwrite hclear =>
    have hbit : bitmapBit ((s.withSeqw p).withOut none).bitmap f.index = true :=
      bitmapBit_of_check_ok hcheck
    exact .completed rfl hst rfl rfl rfl (ne_zero_of_bitmapBit hbit)
  | done hst => exact .ignored rfl hst hst rfl

/-- ADVANCE moves ST on, to another phase than DONE (R22). -/
theorem ne_of_following {p q : Phase} (h : p.following = some q) : q ≠ p ∧ p ≠ .done := by
  cases p <;> cases h <;> decide

/-- Settles O39: each kind of outcome has its codes, and the commands of the ports write none. -/
theorem evtReportsTheObserveOutcome : Obligations.EvtReportsTheObserveOutcome := by
  refine ⟨fun s t len h => ?_, fun i s t hi hne h => ?_⟩
  · cases (exec_observe_iff.1 h).kind with
    | kept he hst hne => obtain he | he | he | he | he := he <;> simp [he, hst, hne]
    | advanced he hst hne =>
      obtain ⟨hmoved, hdone⟩ := ne_of_following hst
      simp [he, hmoved, hdone, hne]
    | accepted he hs ht hout hmore hfewer => simpa [he, hs, ht] using ⟨hmore, hfewer⟩
    | completed he hs ht => simp [he, hs, ht]
    | ignored he hs ht => simp [he, hs, ht]
  · obtain ⟨len, rfl, -⟩ | ⟨rfl, -⟩ | ⟨-, ht⟩ := exec_cases h
    · cases hi
    · exact absurd rfl hne
    · rw [ht]

theorem not_isObserve_of_port {i : Instr} (h : drivesDecoder i = false) : isObserve i = false := by
  cases i with
  | observe => cases h
  | _ => rfl

/-- Settles O40: of all commands only the completing OBSERVE outputs, and what it outputs is sound. -/
theorem credentialIsOutputExactlyOnCompletion : Obligations.CredentialIsOutputExactlyOnCompletion := by
  intro i s t h
  refine ⟨?_, fun c hc => ?_⟩
  · obtain ⟨len, rfl, hobserved⟩ | ⟨rfl, rfl⟩ | ⟨hport, ht⟩ := exec_cases h
    · cases hobserved.kind with
      | kept he hst hne hout => obtain he | he | he | he | he := he <;> simp [he, hout]
      | advanced he hst hne hout => simp [he, hout]
      | accepted he hs ht hout => simp [he, hout]
      | completed he hs ht hout => simp [he, hout, isObserve]
      | ignored he hs ht hout => simp [he, hout]
    · simp [isObserve, State.reset]
    · rw [ht]
      simp [not_isObserve_of_port hport]
  · obtain ⟨-, -, hcredential⟩ := exec_outputSound h c hc
    exact hcredential

/-! ### The events of the phase transitions (44_control.md section 2) -/

theorem leadValid_getElem {w : Vector Len 4} (h : leadValid w = true) :
    w[1].toNat = w[0].toNat + 1 ∧ w[2].toNat = w[1].toNat + 1 ∧ w[3].toNat = w[2].toNat + 1 := by
  simpa only [leadValid, Bool.and_eq_true, decide_eq_true_eq, and_assoc] using h

theorem headerValid_getElem {w bands : Vector Len 4} (h : headerValid w bands = true) :
    w[0] &&& 0x01F0#16 = bands[0] ∧ w[1] &&& 0x01F0#16 = bands[1] ∧ w[2] &&& 0x01F0#16 = bands[2] ∧
      w[3] &&& 0x01F0#16 = bands[3] := by
  simpa only [headerValid, headerBand, Bool.and_eq_true, beq_iff_eq, and_assoc] using h

theorem count_eq_four_of_push_full {w : Vector Len 4} {cnt : BitVec 3} {v : Len} {p : Pushed 4}
    (hpush : p = push w cnt v) (hfull : p.full = true) : p.count = 4 :=
  BitVec.eq_of_toNat_eq (count_of_push_full hpush hfull)

/-- Settles O38: an outcome that changes ST is a validated full window, or the last missing fragment. -/
theorem phaseChangesOnlyOnTheTablesEvents : Obligations.PhaseChangesOnlyOnTheTablesEvents := by
  intro i s t h hst
  obtain ⟨len, rfl, hobserved⟩ | ⟨rfl, rfl⟩ | ⟨-, ht⟩ := exec_cases h
  · cases hobserved with
    | leadAdvance p hs hpush hfull hvalid =>
      exact .inr (.inl ⟨rfl, hs, rfl, count_eq_four_of_push_full hpush hfull, leadValid_getElem hvalid⟩)
    | magicAdvance p hs hpush hfull hvalid =>
      exact .inr (.inr (.inl ⟨rfl, hs, rfl, count_eq_four_of_push_full hpush hfull, headerValid_getElem hvalid⟩))
    | prefixAdvance p hs hpush hfull hvalid =>
      exact .inr (.inr (.inr (.inl ⟨rfl, hs, rfl, count_eq_four_of_push_full hpush hfull, headerValid_getElem hvalid⟩)))
    | sequenceComplete p f m c hs hpush hfull hcheck =>
      have hbit : bitmapBit ((s.withSeqw p).withOut none).bitmap f.index = true := bitmapBit_of_check_ok hcheck
      exact .inr (.inr (.inr (.inr ⟨rfl, hs, rfl, rfl, ne_zero_of_bitmapBit hbit, rfl⟩)))
    | _ => exact absurd rfl hst
  · exact .inl ⟨rfl, rfl⟩
  · exact absurd (congrArg State.st ht) hst

/-! ### What an OBSERVE outside its phase leaves (R201) -/

section
variable {len : Len} {s t : State} (h : Observed len s t)
include h

theorem Observed.lead_frame (hst : s.st ≠ .lead) :
    t.delta = s.delta ∧ t.lead = s.lead ∧ t.leadCnt = s.leadCnt ∧ t.leadValid = s.leadValid := by
  cases h with
  | leadKept p e hlead => exact absurd hlead hst
  | leadAdvance p hlead => exact absurd hlead hst
  | _ => exact ⟨rfl, rfl, rfl, rfl⟩

theorem Observed.magic_frame (hst : s.st ≠ .magic) :
    t.totalLen = s.totalLen ∧ t.totalCrc = s.totalCrc ∧ t.seqQ = s.seqQ ∧ t.seqR = s.seqR ∧ t.mag = s.mag ∧
      t.magCnt = s.magCnt := by
  cases h with
  | magicKept p e hmagic => exact absurd hmagic hst
  | magicAdvance p hmagic => exact absurd hmagic hst
  | _ => exact ⟨rfl, rfl, rfl, rfl, rfl, rfl⟩

theorem Observed.prefix_frame (hst : s.st ≠ .prefixCode) :
    t.pwLen = s.pwLen ∧ t.pwCrc = s.pwCrc ∧ t.pfx = s.pfx ∧ t.pfxCnt = s.pfxCnt := by
  cases h with
  | prefixKept p e hprefix => exact absurd hprefix hst
  | prefixAdvance p hprefix => exact absurd hprefix hst
  | _ => exact ⟨rfl, rfl, rfl, rfl⟩

theorem Observed.sequence_frame (hst : s.st ≠ .sequence) :
    t.seqw = s.seqw ∧ t.seqCnt = s.seqCnt ∧ t.payload = s.payload ∧ t.done = s.done := by
  cases h with
  | sequenceKept p e hsequence => exact absurd hsequence hst
  | sequenceAccept p f m b hsequence => exact absurd hsequence hst
  | sequenceComplete p f m c hsequence => exact absurd hsequence hst
  | _ => exact ⟨rfl, rfl, rfl, rfl⟩

theorem Observed.bitmap_frame (hmagic : s.st ≠ .magic) (hsequence : s.st ≠ .sequence) : t.bitmap = s.bitmap := by
  cases h with
  | magicAdvance p hst => exact absurd hst hmagic
  | sequenceAccept p f m b hst => exact absurd hst hsequence
  | sequenceComplete p f m c hst => exact absurd hst hsequence
  | _ => rfl

theorem Observed.done_frame (hst : s.st = .done) : t = { s with evt := .ignored, out := none } := by
  have hexec := h.exec_eq
  rw [exec_observe_done hst] at hexec
  exact (Host.Outcome.next.inj hexec).symm

end

/-- Only CRCCLR, CRCBYTE and RESET write CRC_ACC (R37). -/
theorem exec_crcAcc_of_ne {i : Instr} {s t : State} (hreset : i ≠ .reset) (hcrcclr : i ≠ .crcclr)
    (hcrcbyte : ∀ b, i ≠ .crcbyte b) (h : exec i s = .next t) : t.crcAcc = s.crcAcc := by
  cases i with
  | observe len =>
    obtain ⟨hcrc, -⟩ := (exec_observe_iff.1 h).ports_eq
    exact hcrc
  | reset => exact absurd rfl hreset
  | crcclr => exact absurd rfl hcrcclr
  | crcbyte b => exact absurd rfl (hcrcbyte b)
  | read addr =>
    obtain ⟨v, -, hv⟩ := exec_read addr s
    rw [hv] at h; cases h; rfl

/-- Only READ and RESET write RDATA (R38). -/
theorem exec_rdata_of_ne {i : Instr} {s t : State} (hreset : i ≠ .reset) (hread : ∀ addr, i ≠ .read addr)
    (h : exec i s = .next t) : t.rdata = s.rdata := by
  cases i with
  | observe len =>
    obtain ⟨-, hrdata, -⟩ := (exec_observe_iff.1 h).ports_eq
    exact hrdata
  | reset => exact absurd rfl hreset
  | crcclr => rw [exec_crcclr] at h; cases h; rfl
  | crcbyte b => rw [exec_crcbyte] at h; cases h; rfl
  | read addr => exact absurd rfl (hread addr)

/-- Settles O41: an OBSERVE leaves what belongs to other phases, and a command of a port writes its own register. -/
theorem registersAreWrittenOnlyInTheirPhase : Obligations.RegistersAreWrittenOnlyInTheirPhase := by
  intro i s t hi h
  have hcrc := fun hcrcclr hcrcbyte => exec_crcAcc_of_ne hi hcrcclr hcrcbyte h
  have hrdata := fun hread => exec_rdata_of_ne hi hread h
  obtain ⟨len, rfl, hobserved⟩ | ⟨rfl, -⟩ | ⟨-, ht⟩ := exec_cases h
  · have inPhase : ∀ {P : Prop}, P ∨ isObserve (.observe len) = false → P := fun hP => hP.resolve_right nofun
    obtain ⟨-, -, hillegal, hinput⟩ := hobserved.ports_eq
    refine ⟨nofun, fun hst => ?_, fun hst => hobserved.lead_frame (inPhase hst),
      fun hst => hobserved.magic_frame (inPhase hst), fun hst => hobserved.prefix_frame (inPhase hst),
      fun hst => hobserved.sequence_frame (inPhase hst), fun hst => ?_, hcrc, hrdata, hillegal, hinput⟩
    · rw [hobserved.done_frame (inPhase hst)]
    · obtain ⟨hmagic, hsequence⟩ := inPhase hst
      exact hobserved.bitmap_frame hmagic hsequence
  · exact absurd rfl hi
  · refine ⟨?_, ?_, ?_, ?_, ?_, ?_, ?_, hcrc, hrdata, ?_, ?_⟩ <;> rw [ht] <;> simp only [and_self, implies_true]

/-! ### Rejected and filling OBSERVEs (R301, R304) -/

/-- Settles O33: such an outcome is one that kept its phase, and wrote its window, EVT and the step output. -/
theorem rejectedObserveChangesOnlyItsWindow : Obligations.RejectedObserveChangesOnlyItsWindow := by
  intro s t len h hevt
  cases exec_observe_iff.1 h with
  | leadKept p e hst => simp [hst]
  | magicKept p e hst => simp [hst]
  | prefixKept p e hst => simp [hst]
  | sequenceKept p e hst => simp [hst]
  | _ => simp at hevt

/-! ### A fragment is written once (R177, R179) -/

/-- A byte that an accepted fragment changes is one of its own. -/
theorem index_eq_of_peek_ne {s : State} {f : Fragment} {m : Memory} (hwf : s.payload.wf = true)
    (hcheck : checkFragment s = .ok f) (hwrite : memWriteBytes s.payload (4 * f.index.toNat) f.bytes = .ok m) {a : Nat}
    (ha : m.peek a ≠ s.payload.peek a) : a / 4 = f.index.toNat := by
  have hlen : f.bytes.length ≤ 4 := checkFragment_bytes_length hcheck ▸ requiredSlots_le ..
  by_contra hne
  exact ha (peek_memWriteBytes_of_outside hwf hwrite (by omega))

/-- An accepted fragment's bytes change with its BITMAP bit falling, and no bit rises. -/
theorem written_once_of_accept {s : State} {f : Fragment} {m : Memory} (hwf : s.payload.wf = true)
    (hcheck : checkFragment s = .ok f) (hwrite : memWriteBytes s.payload (4 * f.index.toNat) f.bytes = .ok m) :
    (∀ a, m.peek a ≠ s.payload.peek a →
      s.bitmap.getLsbD (a / 4) = true ∧ (clearBitmapBit s.bitmap f.index).getLsbD (a / 4) = false) ∧
    ∀ j, (clearBitmapBit s.bitmap f.index).getLsbD j = true → s.bitmap.getLsbD j = true := by
  refine ⟨fun a ha => ?_, fun j hj => ?_⟩
  · rw [clearBitmapBit_getLsbD, index_eq_of_peek_ne hwf hcheck hwrite ha]
    exact ⟨bitmapBit_of_check_ok hcheck, by simp⟩
  · rw [clearBitmapBit_getLsbD, Bool.and_eq_true] at hj
    exact hj.1

/-- Settles O34: only an accepted fragment is written, and only MAGIC sets BITMAP. -/
theorem fragmentIsWrittenOnceBetweenResets : Obligations.FragmentIsWrittenOnceBetweenResets := by
  intro i s t hi h hwf
  obtain ⟨len, rfl, hobserved⟩ | ⟨rfl, -⟩ | ⟨-, ht⟩ := exec_cases h
  · cases hobserved with
    | magicAdvance p hst => exact ⟨fun a ha => absurd rfl ha, fun hne => absurd hst hne⟩
    | sequenceAccept p f m b hst hpush hfull hcheck hwrite hclear =>
      obtain ⟨hwritten, hbits⟩ := written_once_of_accept (s := (s.withSeqw p).withOut none) hwf hcheck hwrite
      subst hclear
      exact ⟨fun a ha => ⟨hst, hwritten a ha⟩, fun _ => hbits⟩
    | sequenceComplete p f m c hst hpush hfull hcheck hwrite =>
      obtain ⟨hwritten, -⟩ := written_once_of_accept (s := (s.withSeqw p).withOut none) hwf hcheck hwrite
      exact ⟨fun a ha => ⟨hst, (hwritten a ha).1, BitVec.getLsbD_zero⟩,
        fun _ j hj => absurd (BitVec.getLsbD_zero.symm.trans hj) nofun⟩
    | _ => exact ⟨fun a ha => absurd rfl ha, fun _ _ => id⟩
  · exact absurd rfl hi
  · rw [ht]
    exact ⟨fun a ha => absurd rfl ha, fun _ _ => id⟩

/-! ### What stays in every stream without RESET (R22, R180) -/

/-- A property that every command but RESET keeps, with nothing output, holds after a stream without RESET. -/
theorem perform_keeps {P : State → Prop}
    (hexec : ∀ i s t, i ≠ .reset → P s → exec i s = .next t → P t ∧ t.out = none) (is : List Instr) (s : State)
    (hreset : .reset ∉ is) (hs : P s) : ∃ t, perform is s = .next t ∧ P t ∧ (is ≠ [] → t.out = none) := by
  induction is generalizing s with
  | nil => exact ⟨s, rfl, hs, fun h => absurd rfl h⟩
  | cons i is ih =>
    have hi : i ≠ .reset := (List.ne_of_not_mem_cons hreset).symm
    have his : .reset ∉ is := List.not_mem_of_not_mem_cons hreset
    obtain ⟨t, ht⟩ := exec_answers i s
    obtain ⟨hkept, hout⟩ := hexec i s t hi hs ht
    obtain ⟨u, hu, hu', hlast⟩ := ih t his hkept
    refine ⟨u, (perform_cons_of_next ht).trans hu, hu', fun _ => ?_⟩
    cases is with
    | nil => cases hu; exact hout
    | cons j js => exact hlast (List.cons_ne_nil j js)

/-- In SEQUENCE with no fragment to wait for, and PAYLOAD, BITMAP and DONE as in s (43_sequence.md section 2). -/
structure StalledLike (s t : State) : Prop where
  st : t.st = .sequence
  seqQ : t.seqQ = 0
  payload : t.payload = s.payload
  bitmap : t.bitmap = s.bitmap
  done : t.done = s.done

/-- With SEQ_Q = 0 no index is below it, so no fragment passes the checks (R176). -/
theorem exec_stalledLike {i : Instr} {s t u : State} (hi : i ≠ .reset) (hs : StalledLike s t) (h : exec i t = .next u) :
    StalledLike s u ∧ u.out = none := by
  obtain ⟨hst, hq, hpayload, hbitmap, hdone⟩ := hs
  have noFragment : ∀ {p : Pushed 6} {f : Fragment}, checkFragment ((t.withSeqw p).withOut none) ≠ .ok f := by
    intro p f hcheck
    obtain ⟨-, -, -, -, hidx, -⟩ := checkFragment_ok hcheck
    exact absurd (hidx.trans_eq (congrArg BitVec.toNat hq)) (Nat.not_lt_zero _)
  obtain ⟨len, rfl, hobserved⟩ | ⟨rfl, -⟩ | ⟨-, hu⟩ := exec_cases h
  · cases hobserved with
    | sequenceKept p e => exact ⟨⟨hst, hq, hpayload, hbitmap, hdone⟩, rfl⟩
    | sequenceAccept p f m b _ hpush hfull hcheck => exact absurd hcheck noFragment
    | sequenceComplete p f m c _ hpush hfull hcheck => exact absurd hcheck noFragment
    | leadKept p e hother | leadAdvance p hother | magicKept p e hother | magicAdvance p hother | prefixKept p e hother
    | prefixAdvance p hother | done hother => exact not_of_st hst hother
  · exact absurd rfl hi
  · rw [hu]
    exact ⟨⟨hst, hq, hpayload, hbitmap, hdone⟩, rfl⟩

/-- Settles O30: the stall is kept by every command but RESET. -/
theorem zeroFragmentsStallUntilReset : Obligations.ZeroFragmentsStallUntilReset := by
  intro is s hst hq hreset
  obtain ⟨t, ht, hkept, hout⟩ := perform_keeps (P := StalledLike s) (fun _ _ _ => exec_stalledLike) is s hreset
    ⟨hst, hq, rfl, rfl, rfl⟩
  exact ⟨t, ht, hkept.st, hkept.seqQ, hkept.payload, hkept.bitmap, hkept.done.trans, hout⟩

/-- In DONE, with the payload and the two lengths that split it as in s (R182). -/
structure DoneLike (s t : State) : Prop where
  st : t.st = .done
  payload : t.payload = s.payload
  pwLen : t.pwLen = s.pwLen
  totalLen : t.totalLen = s.totalLen

theorem exec_doneLike {i : Instr} {s t u : State} (hi : i ≠ .reset) (hs : DoneLike s t) (h : exec i t = .next u) :
    DoneLike s u ∧ u.out = none := by
  obtain ⟨hst, hpayload, hpw, htotal⟩ := hs
  obtain ⟨len, rfl, hobserved⟩ | ⟨rfl, -⟩ | ⟨-, hu⟩ := exec_cases h
  · rw [hobserved.done_frame hst]
    exact ⟨⟨hst, hpayload, hpw, htotal⟩, rfl⟩
  · exact absurd rfl hi
  · rw [hu]
    exact ⟨⟨hst, hpayload, hpw, htotal⟩, rfl⟩

/-- Settles O36: DONE and what the credential is read from are kept by every command but RESET. -/
theorem credentialStaysUntilReset : Obligations.CredentialStaysUntilReset := by
  intro is s hst hreset
  obtain ⟨t, ht, hkept, hout⟩ := perform_keeps (P := DoneLike s) (fun _ _ _ => exec_doneLike) is s hreset
    ⟨hst, rfl, rfl, rfl⟩
  exact ⟨t, ht, hkept.st, hkept.payload, credential_congr hkept.payload hkept.pwLen hkept.totalLen, hout⟩

end Sys2Proof.Machine

/-! The statements of 41_leading_code.md sections 1 and 3: a window's filled slots hold the last values pushed (R120),
and a leading run validates (R122). -/

namespace Sys2Proof.Machine

/-! ### The filled slots of a window (R120) -/

/-- The window's filled slots hold vs, oldest first, and its counter is their number. -/
structure Filled {n : Nat} (w : Vector Len n) (cnt : BitVec 3) (vs : List Len) : Prop where
  count : cnt.toNat = vs.length
  le : vs.length ≤ n
  content : ∀ i, (hi : i < vs.length) → (hn : i < n) → w[i] = vs[i]

section
variable {n : Nat} {w : Vector Len n} {cnt : BitVec 3} {vs : List Len}

theorem filled_nil (h : cnt = 0) : Filled w cnt [] := ⟨congrArg BitVec.toNat h, Nat.zero_le n, nofun⟩

/-- Any window in its legal range holds something. -/
theorem exists_filled (h : cnt.toNat ≤ n) : ∃ vs, Filled w cnt vs := by
  refine ⟨w.toList.take cnt.toNat, ?_, ?_, fun i hi hn => ?_⟩
  · simp [h]
  · simp [h]
  · simp

theorem rtake_eq_self (h : vs.length ≤ n) : vs.rtake n = vs := by
  rw [List.rtake, Nat.sub_eq_zero_of_le h, List.drop_zero]

/-- A push appends its value, and gives up the oldest where there is no room. -/
theorem Filled.push (h : Filled w cnt vs) (hn : n ≤ 7) (v : Len) :
    Filled (push w cnt v).window (push w cnt v).count ((vs ++ [v]).rtake n) := by
  obtain ⟨hcount, hle, hcontent⟩ := h
  have hcount' := push_count_toNat w cnt v hn
  by_cases hroom : cnt.toNat < n
  · rw [rtake_eq_self (by rw [List.length_append, List.length_singleton]; omega)]
    rw [if_pos hroom] at hcount'
    refine ⟨by simp [hcount', hcount], by simp; omega, fun i hi hin => ?_⟩
    rw [push_getElem, if_pos hroom, List.getElem_append]
    by_cases hlast : i = cnt.toNat
    · rw [if_pos hlast, dif_neg (by omega), List.getElem_singleton]
    · have hold : i < vs.length := by simp at hi; omega
      rw [if_neg hlast, dif_pos hold, hcontent i hold hin]
  · have hdrop : (vs ++ [v]).rtake n = (vs ++ [v]).drop 1 := by
      rw [List.rtake, List.length_append, List.length_singleton, show vs.length + 1 - n = 1 by omega]
    rw [hdrop]
    rw [if_neg hroom] at hcount'
    refine ⟨by simp [hcount', hcount], by simp; omega, fun i hi hin => ?_⟩
    rw [push_getElem, if_neg hroom, List.getElem_drop, List.getElem_append]
    by_cases hold : i + 1 < n
    · rw [dif_pos hold, dif_pos (by omega), hcontent (i + 1) (by omega) hold]
      simp only [Nat.add_comm]
    · rw [dif_neg hold, dif_neg (by omega), List.getElem_singleton]

theorem Filled.eq_four {w : Vector Len 4} {cnt : BitVec 3} {a b c d : Len} (h : Filled w cnt [a, b, c, d]) :
    w = #v[a, b, c, d] ∧ cnt = 4 := by
  refine ⟨Vector.ext fun i hi => ?_, BitVec.eq_of_toNat_eq h.count⟩
  rw [h.content i hi hi]
  rfl

theorem Filled.eq_six {w : Vector Len 6} {cnt : BitVec 3} {a b c d e f : Len} (h : Filled w cnt [a, b, c, d, e, f]) :
    w = #v[a, b, c, d, e, f] ∧ cnt = 6 := by
  refine ⟨Vector.ext fun i hi => ?_, BitVec.eq_of_toNat_eq h.count⟩
  rw [h.content i hi hi]
  rfl

/-- Of the last n values and one more, the last n are those of all the values. -/
theorem rtake_rtake_append_singleton (vs : List Len) (n : Nat) (v : Len) :
    (vs.rtake n ++ [v]).rtake n = (vs ++ [v]).rtake n := by
  cases n with
  | zero => simp
  | succ n =>
    rw [List.rtake_concat_succ, List.rtake_concat_succ, List.rtake, List.rtake, List.rtake, List.length_drop,
      List.drop_drop]
    congr 2
    omega

end

/-! ### Pushes into an empty window (R40, R120) -/

section
variable {n : Nat}

theorem pushAll_append_singleton (vs : List Len) (v : Len) :
    (pushAll (vs ++ [v]) : Pushed n) = push (pushAll vs : Pushed n).window (pushAll vs : Pushed n).count v :=
  List.foldl_concat ..

theorem filled_pushAll (hn : n ≤ 7) (vs : List Len) :
    Filled (pushAll vs : Pushed n).window (pushAll vs : Pushed n).count (vs.rtake n) := by
  induction vs using List.reverseRecOn with
  | nil =>
    rw [List.rtake_nil]
    exact filled_nil (w := (pushAll [] : Pushed n).window) rfl
  | append_singleton vs v ih =>
    rw [pushAll_append_singleton, ← rtake_rtake_append_singleton]
    exact ih.push hn v

theorem pushAll_unfilled_zero (hn : n ≤ 7) (vs : List Len) :
    ∀ i, (hi : i < n) → (pushAll vs : Pushed n).count.toNat ≤ i → (pushAll vs : Pushed n).window[i] = 0 := by
  induction vs using List.reverseRecOn with
  | nil => exact fun i hi _ => Vector.getElem_replicate hi
  | append_singleton vs v ih => exact push_unfilled_zero (pushAll_append_singleton vs v) hn ih

theorem pushAll_count (hn : n ≤ 7) (vs : List Len) : (pushAll vs : Pushed n).count.toNat = min n vs.length := by
  rw [(filled_pushAll hn vs).count, List.rtake, List.length_drop]
  omega

theorem pushAll_full (hn : n ≤ 7) {vs : List Len} (hne : vs ≠ []) :
    (pushAll vs : Pushed n).full = true ↔ n ≤ vs.length := by
  have hcount := pushAll_count hn vs
  cases vs using List.reverseRecOn with
  | nil => exact absurd rfl hne
  | append_singleton vs v =>
    rw [pushAll_append_singleton] at hcount ⊢
    rw [push_full, decide_eq_true_eq, hcount]
    exact min_eq_left_iff

/-- Settles O20: the filled slots hold the last values pushed, and the others the reset value. -/
theorem windowHoldsTheLastValuesPushed : Obligations.WindowHoldsTheLastValuesPushed := by
  intro n vs hn p
  refine ⟨pushAll_count hn vs, ?_, pushAll_full hn⟩
  have hfilled := filled_pushAll hn vs
  refine List.ext_getElem (by simp; omega) fun i hi _ => ?_
  rw [Vector.length_toList] at hi
  rw [Vector.getElem_toList, List.getElem_append]
  by_cases hvs : i < (vs.drop (vs.length - n)).length
  · rw [dif_pos hvs]
    exact hfilled.content i hvs hi
  · rw [dif_neg hvs, List.getElem_replicate]
    exact pushAll_unfilled_zero hn vs i hi (hfilled.count.trans_le (Nat.le_of_not_lt hvs))

end

/-! ### Streams of observations -/

theorem observeAll_cons {len : Len} {lens : List Len} {s t : State} (h : exec (.observe len) s = .next t) :
    observeAll (len :: lens) s = observeAll lens t := perform_cons_of_next h

theorem observeAll_append {xs ys : List Len} {s t : State} (h : observeAll xs s = .next t) :
    observeAll (xs ++ ys) s = observeAll ys t := by
  induction xs generalizing s with
  | nil => cases h; rfl
  | cons x xs ih =>
    obtain ⟨u, hu⟩ := exec_answers (.observe x) s
    rw [observeAll_cons hu] at h
    rw [List.cons_append, observeAll_cons hu, ih h]

/-- Four values pushed one after another are the last four. -/
theorem rtake_four (vs : List Len) (a b c d : Len) : (vs ++ [a] ++ [b] ++ [c] ++ [d]).rtake 4 = [a, b, c, d] := by
  rw [List.rtake_concat_succ, List.rtake_concat_succ, List.rtake_concat_succ, List.rtake_concat_succ, List.rtake_zero]
  rfl

/-- A window of four into which a run's fourth value goes holds the run. -/
theorem push_fourth {w : Vector Len 4} {cnt : BitVec 3} {vs : List Len} {a b c : Len}
    (h : Filled w cnt ((vs ++ [a] ++ [b] ++ [c]).rtake 4)) (d : Len) : push w cnt d = ⟨#v[a, b, c, d], 4, true⟩ := by
  have hpushed := h.push (by decide) d
  rw [rtake_rtake_append_singleton, rtake_four] at hpushed
  obtain ⟨hw, hc⟩ := hpushed.eq_four
  have hfull := push_full w cnt d
  rw [hc] at hfull
  calc push w cnt d = ⟨(push w cnt d).window, (push w cnt d).count, (push w cnt d).full⟩ := rfl
    _ = ⟨#v[a, b, c, d], 4, true⟩ := by rw [hw, hc, hfull]; rfl

/-! ### A leading run (R122) -/

/-- In LEAD with a window that holds the last four of vs, or past LEAD. -/
def LeadHolds (vs : List Len) (s : State) : Prop := s.st = .lead → Filled s.lead s.leadCnt (vs.rtake 4)

/-- No OBSERVE goes back to LEAD (R22). -/
theorem Observed.lead_of_lead {len : Len} {s t : State} (h : Observed len s t) (ht : t.st = .lead) : s.st = .lead := by
  cases h with
  | leadKept p e hst => exact hst
  | leadAdvance | magicAdvance | prefixAdvance | sequenceComplete => cases ht
  | _ => exact ht

theorem Observed.leadHolds {len : Len} {s t : State} {vs : List Len} (h : Observed len s t) (hs : LeadHolds vs s) :
    LeadHolds (vs ++ [len]) t := by
  intro ht
  have hlead := h.lead_of_lead ht
  have hfilled := hs hlead
  cases h with
  | leadKept p e hst hpush =>
    rw [← rtake_rtake_append_singleton, hpush]
    exact hfilled.push (by decide) len
  | leadAdvance | magicAdvance | prefixAdvance | sequenceComplete => cases ht
  | magicKept p e hst | prefixKept p e hst | sequenceKept p e hst | sequenceAccept p f m b hst | done hst =>
    exact not_of_st hst hlead

theorem exec_leadHolds {vs : List Len} {s : State} (hs : LeadHolds vs s) (len : Len) :
    ∃ t, exec (.observe len) s = .next t ∧ LeadHolds (vs ++ [len]) t := by
  obtain ⟨t, ht, hobserved⟩ := exec_observe_observed len s
  exact ⟨t, ht, hobserved.leadHolds hs⟩

/-- Below 2^16 the sums of R88's lead are sums of numbers. -/
theorem ofNat_add_toNat {d k : Nat} (hd : d ≤ 65531) (hk : k ≤ 4) : (BitVec.ofNat 16 (d + k)).toNat = d + k :=
  Nat.mod_eq_of_lt (by omega)

theorem leadLengths_ofNat (d : Nat) :
    leadLengths (BitVec.ofNat 16 d) =
      [BitVec.ofNat 16 (d + 1), BitVec.ofNat 16 (d + 2), BitVec.ofNat 16 (d + 3), BitVec.ofNat 16 (d + 4)] := by
  simp only [leadLengths, BitVec.ofNat_add]
  rfl

/-- The fourth length of a run that is one more than the third, and so on, moves LEAD on (R122, R123). -/
theorem exec_fourth_of_run {s : State} {vs : List Len} {d : Nat} (hd : d ≤ 65531)
    (hs : LeadHolds (vs ++ [BitVec.ofNat 16 (d + 1)] ++ [BitVec.ofNat 16 (d + 2)] ++ [BitVec.ofNat 16 (d + 3)]) s) :
    ∃ t, exec (.observe (BitVec.ofNat 16 (d + 4))) s = .next t ∧ t.st ≠ .lead := by
  by_cases hst : s.st = .lead
  · have hpush := push_fourth (hs hst) (BitVec.ofNat 16 (d + 4))
    have hrun : leadValid #v[BitVec.ofNat 16 (d + 1), BitVec.ofNat 16 (d + 2), BitVec.ofNat 16 (d + 3),
        BitVec.ofNat 16 (d + 4)] = true := by
      rw [leadValid_iff]
      simp only [ofNat_add_toNat hd, Nat.reduceLeDiff]
      trivial
    refine ⟨_, exec_observe_lead hst, ?_⟩
    rw [observeLead_of_valid (by rw [hpush]) (by rw [hpush, hrun])]
    nofun
  · obtain ⟨t, ht, hobserved⟩ := exec_observe_observed (BitVec.ofNat 16 (d + 4)) s
    exact ⟨t, ht, fun hlead => hst (hobserved.lead_of_lead hlead)⟩

/-- A run ends LEAD wherever it finds it. -/
theorem observeAll_leadLengths_leaves_lead {s : State} {d : Nat} (hcnt : s.leadCnt.toNat ≤ 4) (hd : d ≤ 65531) :
    ∃ t, observeAll (leadLengths (BitVec.ofNat 16 d)) s = .next t ∧ t.st ≠ .lead := by
  obtain ⟨vs, hvs⟩ := exists_filled (w := s.lead) hcnt
  obtain ⟨t₁, h₁, hs₁⟩ := exec_leadHolds (s := s) (fun _ => (rtake_eq_self hvs.le).symm ▸ hvs) (BitVec.ofNat 16 (d + 1))
  obtain ⟨t₂, h₂, hs₂⟩ := exec_leadHolds hs₁ (BitVec.ofNat 16 (d + 2))
  obtain ⟨t₃, h₃, hs₃⟩ := exec_leadHolds hs₂ (BitVec.ofNat 16 (d + 3))
  obtain ⟨t₄, h₄, hst⟩ := exec_fourth_of_run hd hs₃
  refine ⟨t₄, ?_, hst⟩
  rw [leadLengths_ofNat, observeAll_cons h₁, observeAll_cons h₂, observeAll_cons h₃, observeAll_cons h₄]
  rfl

/-- The state that the run d+1 .. d+4 leaves from reset: DELTA = d, in MAGIC (R123). -/
def afterLeadRun (d : Nat) : State :=
  { State.reset with
    lead := #v[BitVec.ofNat 16 (d + 1), BitVec.ofNat 16 (d + 2), BitVec.ofNat 16 (d + 3), BitVec.ofNat 16 (d + 4)]
    leadCnt := 4, delta := BitVec.ofNat 16 d, leadValid := true, st := .magic, evt := .advance }

/-- The state of an unfinished leading run from reset. -/
def leadFilling (w : Vector Len 4) (cnt : BitVec 3) : State :=
  { State.reset with lead := w, leadCnt := cnt, evt := .fill }

theorem exec_leadFilling {cnt : BitVec 3} (h : cnt.toNat < 3) (w : Vector Len 4) (v : Len) :
    exec (.observe v) (leadFilling w cnt) = .next (leadFilling (w.setIfInBounds cnt.toNat v) (cnt + 1)) :=
  (observeInLeadResult (leadFilling w cnt) v rfl).1 h

/-- The fourth length of a run from reset (R121, R123). -/
theorem exec_leadFilling_run {d : Nat} (hd : d ≤ 65531) :
    exec (.observe (BitVec.ofNat 16 (d + 4)))
      (leadFilling #v[BitVec.ofNat 16 (d + 1), BitVec.ofNat 16 (d + 2), BitVec.ofNat 16 (d + 3), 0] 3) =
      .next (afterLeadRun d) := by
  have h := (observeInLeadResult (leadFilling #v[BitVec.ofNat 16 (d + 1), BitVec.ofNat 16 (d + 2),
    BitVec.ofNat 16 (d + 3), 0] 3) (BitVec.ofNat 16 (d + 4)) rfl).2 _ _ _ _ (.inl ⟨rfl, rfl⟩)
  have hdelta : BitVec.ofNat 16 (d + 1 + 65535) = BitVec.ofNat 16 d :=
    BitVec.eq_of_toNat_eq (by simp only [BitVec.toNat_ofNat]; omega)
  simp only [ofNat_add_toNat hd, Nat.reduceLeDiff, hdelta] at h
  exact h.1 ⟨trivial, trivial, trivial⟩

/-- From reset three lengths fill the window, and the fourth validates it. -/
theorem exec_lead_run {d : Nat} (hd : d ≤ 65531) : ∃ t₁ t₂ t₃ : State,
    exec (.observe (BitVec.ofNat 16 (d + 1))) State.reset = .next t₁ ∧ t₁.evt = .fill ∧
    exec (.observe (BitVec.ofNat 16 (d + 2))) t₁ = .next t₂ ∧ t₂.evt = .fill ∧
    exec (.observe (BitVec.ofNat 16 (d + 3))) t₂ = .next t₃ ∧ t₃.evt = .fill ∧
    exec (.observe (BitVec.ofNat 16 (d + 4))) t₃ = .next (afterLeadRun d) :=
  ⟨leadFilling #v[BitVec.ofNat 16 (d + 1), 0, 0, 0] 1,
    leadFilling #v[BitVec.ofNat 16 (d + 1), BitVec.ofNat 16 (d + 2), 0, 0] 2, _,
    (observeInLeadResult State.reset _ rfl).1 (by decide), rfl, exec_leadFilling (by decide) _ _, rfl,
    exec_leadFilling (by decide) _ _, rfl, exec_leadFilling_run hd⟩

/-- Settles O22: a run fills the window and validates, from reset at its fourth length, and in LEAD at the latest
then. -/
theorem leadingRunValidates : Obligations.LeadingRunValidates := by
  refine ⟨fun d hd => ?_, fun s d _ hcnt hd => observeAll_leadLengths_leaves_lead hcnt hd⟩
  obtain ⟨t₁, t₂, t₃, h₁, he₁, h₂, he₂, h₃, he₃, h₄⟩ := exec_lead_run hd
  exact ⟨t₁, t₂, t₃, _, h₁, he₁, h₂, he₂, h₃, he₃, h₄, rfl, rfl, Nat.mod_eq_of_lt (by omega), rfl⟩

end Sys2Proof.Machine

/-! The statement of 42_header_decoder.md section 4: a header gives back its value and CRC byte (R142, R143, R146,
R149). -/

namespace Sys2Proof.Machine

/-! ### The slots of a header (R88, R142, R143) -/

/-- A header slot: a nibble in its band; `headerLengths_eq` ties it to the assembler's lengths. -/
def headerSlot (band : Len) (nibble : Byte) : Len := band ||| nibble.setWidth 16

theorem headerLengths_eq (bands : Vector Len 4) (v c : Byte) (d : Len) :
    headerLengths bands v c d =
      [d + headerSlot bands[0] (v >>> 4), d + headerSlot bands[1] (v &&& 0x0F#8),
        d + headerSlot bands[2] (c >>> 4), d + headerSlot bands[3] (c &&& 0x0F#8)] := rfl

theorem adjusted_add (d v : Len) : adjusted (d + v) d = v := by
  rw [adjusted, BitVec.add_comm, BitVec.add_sub_cancel]

theorem ushiftRight_four_and_fifteen (v : Byte) : v >>> 4 &&& 0x0F#8 = v >>> 4 := by
  have hlt : v.toNat / 2 ^ 4 < 2 ^ 4 := by omega
  apply BitVec.eq_of_toNat_eq
  rw [BitVec.toNat_and, BitVec.toNat_ushiftRight, Nat.shiftRight_eq_div_pow]
  exact (Nat.and_two_pow_sub_one_eq_mod _ 4).trans (Nat.mod_eq_of_lt hlt)

theorem and_fifteen_and_fifteen (v : Byte) : v &&& 0x0F#8 &&& 0x0F#8 = v &&& 0x0F#8 := by
  rw [BitVec.and_assoc, BitVec.and_self]

/-- A slot masked by bits of its band alone, or of its nibble alone. -/
theorem headerSlot_and (band mask : Len) (u : Byte) :
    headerSlot band u &&& mask = band &&& mask ||| u.setWidth 16 &&& mask := BitVec.and_or_distrib_right

/-- A slot lies in its band: a nibble has no bit in the band field. -/
theorem headerBand_headerSlot {band : Len} {u : Byte} (hband : band &&& 0x01F0#16 = band) (hu : u &&& 0x0F#8 = u) :
    headerBand (headerSlot band u) = band := by
  have hclear : u.setWidth 16 &&& 0x01F0#16 = 0#16 := by
    rw [← hu, BitVec.setWidth_and, BitVec.and_assoc, show (0x0F#8).setWidth 16 &&& 0x01F0#16 = 0#16 by decide,
      BitVec.and_zero]
  rw [headerBand, headerSlot_and, hband, hclear, BitVec.or_zero]

/-- The low nibble of a slot is the nibble put into it. -/
theorem headerSlot_mod {band : Len} {u : Byte} (hband : band &&& 0x0F#16 = 0#16) (hu : u &&& 0x0F#8 = u) :
    (headerSlot band u).toNat % 16 = u.toNat := by
  have hlow : headerSlot band u &&& 0x0F#16 = u.setWidth 16 := by
    rw [headerSlot_and, hband, BitVec.zero_or, show 0x0F#16 = (0x0F#8).setWidth 16 by decide, ← BitVec.setWidth_and, hu]
  have hmod : (headerSlot band u).toNat &&& 15 = (headerSlot band u).toNat % 16 :=
    Nat.and_two_pow_sub_one_eq_mod _ 4
  rw [← hmod]
  have hnum := congrArg BitVec.toNat hlow
  rwa [BitVec.toNat_and, BitVec.toNat_setWidth, Nat.mod_eq_of_lt (by omega)] at hnum

/-- Bands that keep clear of the nibbles, the last one told from the others (R8). -/
structure HeaderBands (bands : Vector Len 4) : Prop where
  band : ∀ i, (h : i < 4) → bands[i] &&& 0x01F0#16 = bands[i]
  low : ∀ i, (h : i < 4) → bands[i] &&& 0x0F#16 = 0#16
  last : ∀ i, (h : i < 3) → bands[i] ≠ bands[3]

theorem headerBands_magic : HeaderBands Config.magicBands := ⟨by decide, by decide, by decide⟩

theorem headerBands_prefix : HeaderBands Config.prefixBands := ⟨by decide, by decide, by decide⟩

/-- The window that a header's four slots fill. -/
def headerWindow (bands : Vector Len 4) (v c : Byte) : Vector Len 4 :=
  #v[headerSlot bands[0] (v >>> 4), headerSlot bands[1] (v &&& 0x0F#8), headerSlot bands[2] (c >>> 4),
    headerSlot bands[3] (c &&& 0x0F#8)]

section
variable {bands : Vector Len 4} (hb : HeaderBands bands) (v c : Byte)
include hb

theorem headerValid_headerWindow : headerValid (headerWindow bands v c) bands = true := by
  have hslot : ∀ i, (h : i < 4) → ∀ u : Byte, u &&& 0x0F#8 = u → headerBand (headerSlot bands[i] u) = bands[i] :=
    fun i h u hu => headerBand_headerSlot (hb.band i h) hu
  simp only [headerValid, Bool.and_eq_true, beq_iff_eq, and_assoc]
  exact ⟨hslot 0 (by decide) _ (ushiftRight_four_and_fifteen v), hslot 1 (by decide) _ (and_fifteen_and_fifteen v),
    hslot 2 (by decide) _ (ushiftRight_four_and_fifteen c), hslot 3 (by decide) _ (and_fifteen_and_fifteen c)⟩

theorem headerWindow_nibbles_toNat :
    (headerSlot bands[0] (v >>> 4)).toNat % 16 = v.toNat / 16 ∧
    (headerSlot bands[1] (v &&& 0x0F#8)).toNat % 16 = v.toNat % 16 ∧
    (headerSlot bands[2] (c >>> 4)).toNat % 16 = c.toNat / 16 ∧
    (headerSlot bands[3] (c &&& 0x0F#8)).toNat % 16 = c.toNat % 16 := by
  have hhigh : ∀ u : Byte, (u >>> 4).toNat = u.toNat / 16 := fun u => by
    rw [BitVec.toNat_ushiftRight, Nat.shiftRight_eq_div_pow]
  have hlow : ∀ u : Byte, (u &&& 0x0F#8).toNat = u.toNat % 16 := fun u => Nat.and_two_pow_sub_one_eq_mod _ 4
  refine ⟨?_, ?_, ?_, ?_⟩
  · rw [headerSlot_mod (hb.low 0 (by decide)) (ushiftRight_four_and_fifteen v), hhigh]
  · rw [headerSlot_mod (hb.low 1 (by decide)) (and_fifteen_and_fifteen v), hlow]
  · rw [headerSlot_mod (hb.low 2 (by decide)) (ushiftRight_four_and_fifteen c), hhigh]
  · rw [headerSlot_mod (hb.low 3 (by decide)) (and_fifteen_and_fifteen c), hlow]

/-- The value read from a header's window: the value sent, but for the quirk of slot 0 (R143). -/
theorem headerValue_headerWindow_toNat :
    (headerValue (headerWindow bands v c)).toNat =
      if v.toNat / 16 = 8 then 0xF0 + v.toNat % 16 else v.toNat := by
  obtain ⟨h0, h1, -, -⟩ := headerWindow_nibbles_toNat hb v c
  rw [headerWindow, headerValue_toNat, h0, h1]
  split <;> omega

theorem headerCrc_headerWindow : headerCrc (headerWindow bands v c) = c := by
  obtain ⟨-, -, h2, h3⟩ := headerWindow_nibbles_toNat hb v c
  apply BitVec.eq_of_toNat_eq
  rw [headerWindow, headerCrc_toNat, h2, h3]
  omega

end

/-! ### A header's four lengths, in either header phase (R141 to R149) -/

/-- A header phase at offset d: unit w n e o is its state with window w and counter n, and final w the state that the
valid window w leads to. -/
structure HeaderPhase (bands : Vector Len 4) (d : Len)
    (unit : Vector Len 4 → BitVec 3 → Evt → Option Credential → State) (final : Vector Len 4 → State) : Prop where
  keeps : ∀ (w : Vector Len 4) (n : BitVec 3) (e : Evt) (o : Option Credential) (v : Len) (p : Pushed 4),
    push w n v = p → (p.full = true → headerValid p.window bands = false) →
      ∃ e', exec (.observe (d + v)) (unit w n e o) = .next (unit p.window p.count e' none)
  validates : ∀ (w : Vector Len 4) (n : BitVec 3) (e : Evt) (o : Option Credential) (v : Len) (w' : Vector Len 4),
    push w n v = ⟨w', 4, true⟩ → headerValid w' bands = true →
      exec (.observe (d + v)) (unit w n e o) = .next (final w')

/-- The value pushed last stands in the last slot of a full window. -/
theorem last_of_push_full {w : Vector Len 4} {n : BitVec 3} {v : Len} (hfull : (push w n v).full = true) :
    (push w n v).window[3] = v := by
  have hcount := count_of_push_full rfl hfull
  rw [push_count_toNat w n v (by decide)] at hcount
  rw [push_getElem]
  split
  · next hroom =>
    rw [if_pos hroom] at hcount
    rw [if_pos (by omega)]
  · rfl

section
variable {bands : Vector Len 4} {d : Len} {unit : Vector Len 4 → BitVec 3 → Evt → Option Credential → State}
  {final : Vector Len 4 → State} {w : Vector Len 4} {n : BitVec 3} {vs : List Len}

/-- A length outside the last slot's band leaves the phase, and the window holds the last lengths. -/
theorem HeaderPhase.exec_keeps (hp : HeaderPhase bands d unit final) (hw : Filled w n (vs.rtake 4)) (e : Evt)
    (o : Option Credential) {v : Len} (hv : headerBand v ≠ bands[3]) :
    ∃ w' n' e', exec (.observe (d + v)) (unit w n e o) = .next (unit w' n' e' none) ∧
      Filled w' n' ((vs ++ [v]).rtake 4) := by
  have hnot : (push w n v).full = true → headerValid (push w n v).window bands = false := by
    refine fun hfull => Bool.eq_false_iff.2 fun hvalid => hv ?_
    obtain ⟨-, -, -, hlast⟩ := headerValid_getElem hvalid
    rwa [last_of_push_full hfull] at hlast
  obtain ⟨e', he'⟩ := hp.keeps w n e o v _ rfl hnot
  exact ⟨_, _, e', he', rtake_rtake_append_singleton vs 4 v ▸ hw.push (by decide) v⟩

/-- Whatever stood in the window, a header's fourth length validates it, and none before does. -/
theorem HeaderPhase.observeAll_header (hp : HeaderPhase bands d unit final) (hb : HeaderBands bands)
    (hn : n.toNat ≤ 4) (e : Evt) (o : Option Credential) (v c : Byte) :
    observeAll (headerLengths bands v c d) (unit w n e o) = .next (final (headerWindow bands v c)) := by
  obtain ⟨vs, hvs⟩ := exists_filled (w := w) hn
  have hband : ∀ i, (h : i < 3) → ∀ u : Byte, u &&& 0x0F#8 = u → headerBand (headerSlot bands[i] u) ≠ bands[3] :=
    fun i h u hu => (headerBand_headerSlot (hb.band i (by omega)) hu).trans_ne (hb.last i h)
  obtain ⟨w₁, n₁, e₁, h₁, hw₁⟩ := hp.exec_keeps ((rtake_eq_self hvs.le).symm ▸ hvs) e o
    (hband 0 (by decide) (v >>> 4) (ushiftRight_four_and_fifteen v))
  obtain ⟨w₂, n₂, e₂, h₂, hw₂⟩ := hp.exec_keeps hw₁ e₁ none
    (hband 1 (by decide) (v &&& 0x0F#8) (and_fifteen_and_fifteen v))
  obtain ⟨w₃, n₃, e₃, h₃, hw₃⟩ := hp.exec_keeps hw₂ e₂ none
    (hband 2 (by decide) (c >>> 4) (ushiftRight_four_and_fifteen c))
  have h₄ := hp.validates w₃ n₃ e₃ none _ _ (push_fourth hw₃ _) (headerValid_headerWindow hb v c)
  rw [headerLengths_eq, observeAll_cons h₁, observeAll_cons h₂, observeAll_cons h₃, observeAll_cons h₄]
  rfl

end

/-! ### The two header phases -/

/-- s with another MAG window, EVT and step output. -/
def State.withMagWindow (s : State) (w : Vector Len 4) (n : BitVec 3) (e : Evt) (o : Option Credential) : State :=
  { s with mag := w, magCnt := n, evt := e, out := o }

/-- s with another PFX window, EVT and step output. -/
def State.withPfxWindow (s : State) (w : Vector Len 4) (n : BitVec 3) (e : Evt) (o : Option Credential) : State :=
  { s with pfx := w, pfxCnt := n, evt := e, out := o }

/-- The state that a valid MAG window leads to (R146). -/
def afterMagicWindow (s : State) (w : Vector Len 4) : State :=
  { s with
    mag := w, magCnt := 4, totalLen := headerValue w, totalCrc := headerCrc w, seqQ := fragmentCount (headerValue w)
    seqR := lastFragmentBytes (headerValue w), bitmap := fullBitmap (fragmentCount (headerValue w)), st := .prefixCode
    evt := .advance, out := none }

/-- The state that a valid PFX window leads to (R149). -/
def afterPrefixWindow (s : State) (w : Vector Len 4) : State :=
  { s with
    pfx := w, pfxCnt := 4, pwLen := headerValue w, pwCrc := headerCrc w, st := .sequence, evt := .advance, out := none }

theorem headerPhase_magic {s : State} (hst : s.st = .magic) :
    HeaderPhase Config.magicBands s.delta s.withMagWindow (afterMagicWindow s) := by
  refine ⟨fun w n e o v p hpush hnot => ?_, fun w n e o v w' hpush hvalid => ?_⟩
  · have hadj : p = push w n (adjusted (s.delta + v) s.delta) := (adjusted_add s.delta v).symm ▸ hpush.symm
    cases hfull : p.full with
    | false => exact ⟨_, (Observed.magicKept (s := s.withMagWindow w n e o) p _ hst hadj (.inl ⟨hfull, rfl⟩)).exec_eq⟩
    | true =>
      exact ⟨_, (Observed.magicKept (s := s.withMagWindow w n e o) p _ hst hadj
        (.inr ⟨hfull, hnot hfull, rfl⟩)).exec_eq⟩
  · have hadj : ⟨w', 4, true⟩ = push w n (adjusted (s.delta + v) s.delta) :=
      (adjusted_add s.delta v).symm ▸ hpush.symm
    exact (Observed.magicAdvance (s := s.withMagWindow w n e o) _ hst hadj rfl hvalid).exec_eq

theorem headerPhase_prefix {s : State} (hst : s.st = .prefixCode) :
    HeaderPhase Config.prefixBands s.delta s.withPfxWindow (afterPrefixWindow s) := by
  refine ⟨fun w n e o v p hpush hnot => ?_, fun w n e o v w' hpush hvalid => ?_⟩
  · have hadj : p = push w n (adjusted (s.delta + v) s.delta) := (adjusted_add s.delta v).symm ▸ hpush.symm
    cases hfull : p.full with
    | false => exact ⟨_, (Observed.prefixKept (s := s.withPfxWindow w n e o) p _ hst hadj (.inl ⟨hfull, rfl⟩)).exec_eq⟩
    | true =>
      exact ⟨_, (Observed.prefixKept (s := s.withPfxWindow w n e o) p _ hst hadj
        (.inr ⟨hfull, hnot hfull, rfl⟩)).exec_eq⟩
  · have hadj : ⟨w', 4, true⟩ = push w n (adjusted (s.delta + v) s.delta) :=
      (adjusted_add s.delta v).symm ▸ hpush.symm
    exact (Observed.prefixAdvance (s := s.withPfxWindow w n e o) _ hst hadj rfl hvalid).exec_eq

theorem observeAll_magicHeader {s : State} (hst : s.st = .magic) (hcnt : s.magCnt.toNat ≤ 4) (v c : Byte) :
    observeAll (headerLengths Config.magicBands v c s.delta) s =
      .next (afterMagicWindow s (headerWindow Config.magicBands v c)) :=
  (headerPhase_magic hst).observeAll_header headerBands_magic hcnt s.evt s.out v c

theorem observeAll_prefixHeader {s : State} (hst : s.st = .prefixCode) (hcnt : s.pfxCnt.toNat ≤ 4) (v c : Byte) :
    observeAll (headerLengths Config.prefixBands v c s.delta) s =
      .next (afterPrefixWindow s (headerWindow Config.prefixBands v c)) :=
  (headerPhase_prefix hst).observeAll_header headerBands_prefix hcnt s.evt s.out v c

/-- Settles O26: the header's four slots fill the window, and the window gives back the two bytes. -/
theorem headerRoundTrip : Obligations.HeaderRoundTrip := by
  refine fun s v c => ⟨fun hst hcnt => ?_, fun hst hcnt => ?_⟩
  · exact ⟨_, observeAll_magicHeader hst hcnt v c, rfl, headerValue_headerWindow_toNat headerBands_magic v c,
      headerCrc_headerWindow headerBands_magic v c⟩
  · exact ⟨_, observeAll_prefixHeader hst hcnt v c, rfl, headerValue_headerWindow_toNat headerBands_prefix v c,
      headerCrc_headerWindow headerBands_prefix v c⟩

end Sys2Proof.Machine

/-! The statements of 43_sequence.md section 3 and 95_test_vectors.md section 0: fragments in any order reassemble the
payload, and the whole length stream of a credential is decoded. -/

namespace Sys2Proof.Machine

/-! ### The slots of a fragment (R88, R171 to R174) -/

/-- The first slot: the header marker and the 7-bit CRC of index and bytes. -/
def crcSlot (i : BitVec 7) (bytes : List Byte) : Len :=
  Config.seqHdrMark ||| ((crc8 (i.setWidth 8 :: bytes)).setWidth 16 &&& Config.field7Mask)

/-- The second slot: the header marker and the index. -/
def indexSlot (i : BitVec 7) : Len := Config.seqHdrMark ||| i.setWidth 16

/-- A data slot: the data marker and a byte. -/
def dataSlot (b : Byte) : Len := Config.seqDataMark ||| b.setWidth 16

theorem fragmentLengths_eq (i : BitVec 7) (bytes : List Byte) (d : Len) :
    fragmentLengths i bytes d = (crcSlot i bytes :: indexSlot i :: bytes.map dataSlot).map (d + ·) := by
  simp only [fragmentLengths, List.map_cons, List.map_map]
  rfl

theorem and_field7Mask_toNat (x : Len) : (x &&& 0x007F#16).toNat = x.toNat % 128 :=
  (BitVec.toNat_and ..).trans (Nat.and_two_pow_sub_one_eq_mod x.toNat 7)

/-- A header slot: the marker, and seven bits that keep clear of it. -/
theorem seqHdrMark_or {x : Len} (hx : x &&& 0x007F#16 = x) :
    (0x0080#16 ||| x) &&& 0x0180#16 = 0x0080#16 ∧ (0x0080#16 ||| x).toNat % 128 = x.toNat := by
  have hclear : x &&& 0x0180#16 = 0#16 := by
    rw [← hx, BitVec.and_assoc, show 0x007F#16 &&& 0x0180#16 = 0#16 by decide, BitVec.and_zero]
  refine ⟨?_, ?_⟩
  · rw [BitVec.and_or_distrib_right, hclear, BitVec.or_zero]
    decide
  · rw [← and_field7Mask_toNat, BitVec.and_or_distrib_right, hx, show 0x0080#16 &&& 0x007F#16 = 0#16 by decide,
      BitVec.zero_or]

theorem crcSlot_spec (i : BitVec 7) (bytes : List Byte) :
    crcSlot i bytes &&& 0x0180#16 = 0x0080#16 ∧
      (crcSlot i bytes).toNat % 128 = (crc8 (i.setWidth 8 :: bytes)).toNat % 128 := by
  obtain ⟨hmark, hcrc⟩ := seqHdrMark_or (x := (crc8 (i.setWidth 8 :: bytes)).setWidth 16 &&& 0x007F#16)
    (by rw [BitVec.and_assoc, BitVec.and_self])
  refine ⟨hmark, hcrc.trans ?_⟩
  rw [and_field7Mask_toNat, BitVec.toNat_setWidth]
  omega

theorem indexSlot_spec (i : BitVec 7) :
    indexSlot i &&& 0x0180#16 = 0x0080#16 ∧ (indexSlot i).toNat % 128 = i.toNat := by
  have hnum : (i.setWidth 16 : Len).toNat = i.toNat := by
    rw [BitVec.toNat_setWidth]
    omega
  obtain ⟨hmark, hidx⟩ := seqHdrMark_or (x := i.setWidth 16)
    (BitVec.eq_of_toNat_eq (by rw [and_field7Mask_toNat, hnum]; omega))
  exact ⟨hmark, hidx.trans hnum⟩

theorem dataSlot_spec (b : Byte) :
    dataSlot b &&& 0x0100#16 = 0x0100#16 ∧ BitVec.ofNat 8 (dataSlot b).toNat = b := by
  have hclear : b.setWidth 16 &&& 0x0100#16 = 0#16 := by
    have hbyte : b.setWidth 16 &&& 0x00FF#16 = b.setWidth 16 := by
      apply BitVec.eq_of_toNat_eq
      rw [BitVec.toNat_and, BitVec.toNat_setWidth]
      exact (Nat.and_two_pow_sub_one_eq_mod _ 8).trans (by omega)
    rw [← hbyte, BitVec.and_assoc, show 0x00FF#16 &&& 0x0100#16 = 0#16 by decide, BitVec.and_zero]
  refine ⟨?_, ?_⟩
  · rw [dataSlot, BitVec.and_or_distrib_right, hclear, BitVec.or_zero]
    decide
  · rw [BitVec.ofNat_toNat, dataSlot, BitVec.setWidth_or, BitVec.setWidth_setWidth_of_le _ (by decide),
      BitVec.setWidth_eq, show (Config.seqDataMark).setWidth 8 = 0#8 by decide, BitVec.zero_or]

/-- A data slot carries no header marker. -/
theorem dataSlot_not_header (b : Byte) : dataSlot b &&& 0x0180#16 ≠ 0x0080#16 := by
  intro h
  have hdata : dataSlot b &&& 0x0180#16 &&& 0x0100#16 = 0x0100#16 := by
    rw [BitVec.and_assoc]
    exact (dataSlot_spec b).1
  rw [h] at hdata
  exact absurd hdata (by decide)

/-! ### A window that holds a fragment passes the checks (R171 to R177) -/

theorem slotBytes_map_dataSlot (bytes : List Byte) : slotBytes (bytes.map dataSlot) = bytes := by
  rw [slotBytes, List.map_map]
  exact (List.map_congr_left fun b _ => (dataSlot_spec b).2).trans (List.map_id bytes)

/-- The slots behind a fragment's own are not examined (R173). -/
theorem checkFragment_of_slots {s : State} {i : BitVec 7} {bytes : List Byte} {w2 w3 w4 w5 : Len}
    (hw : s.seqw = #v[crcSlot i bytes, indexSlot i, w2, w3, w4, w5])
    (hsize : bytes.length = fragmentSize s.seqQ.toNat s.seqR.toNat i.toNat)
    (hdata : [w2, w3, w4, w5].take bytes.length = bytes.map dataSlot) (hidx : i.toNat < s.seqQ.toNat)
    (hbit : bitmapBit s.bitmap i = true) : checkFragment s = .ok ⟨i, bytes⟩ := by
  obtain ⟨hcrcMark, hcrc⟩ := crcSlot_spec i bytes
  obtain ⟨hidxMark, hnum⟩ := indexSlot_spec i
  have hwindow : windowData s (indexSlot i) w2 w3 w4 w5 = bytes.map dataSlot := by
    rw [windowData, hnum, ← hsize, hdata]
  have hmarked : ∀ v ∈ bytes.map dataSlot, v &&& 0x0100#16 = 0x0100#16 := by
    intro v hv
    obtain ⟨b, -, rfl⟩ := List.mem_map.1 hv
    exact (dataSlot_spec b).1
  have hfield : field7 (indexSlot i) = i := BitVec.eq_of_toNat_eq ((field7_toNat _).trans hnum)
  rw [checkFragment_eq hw, hwindow, slotBytes_map_dataSlot, hfield, if_neg (not_not_intro ⟨hcrcMark, hidxMark⟩),
    if_neg (not_not_intro hmarked), hnum, BitVec.ofNat_toNat, if_neg (not_not_intro hcrc.symm),
    if_neg (Nat.not_le_of_lt hidx), if_neg (not_not_intro ((bitmapBit_iff ..).1 hbit))]

/-! ### The decoder while fragments are missing -/

/-- Of the payload content f, with the offset and the lengths of s₀, the decoder s still waits for the fragments missing
and has every other byte; it is in SEQUENCE while a fragment is missing, and then in DONE. -/
structure Reassembling (s₀ : State) (f : Nat → Byte) (missing : List (BitVec 7)) (s : State) : Prop where
  st : s.st = if missing = [] then .done else .sequence
  delta : s.delta = s₀.delta
  totalLen : s.totalLen = s₀.totalLen
  pwLen : s.pwLen = s₀.pwLen
  seqQ : s.seqQ.toNat = (s₀.totalLen.toNat + 3) / 4
  seqR : s.seqR.toNat = s₀.totalLen.toNat % 4
  wf : s.payload.wf = true
  nodup : (missing.map BitVec.toNat).Nodup
  inside : ∀ i ∈ missing, i.toNat < (s₀.totalLen.toNat + 3) / 4
  bitmap : ∀ j, s.bitmap.getLsbD j = true ↔ j ∈ missing.map BitVec.toNat
  written : ∀ a, a < s₀.totalLen.toNat → a / 4 ∉ missing.map BitVec.toNat → s.payload.peek a = f a

section
variable {s₀ s : State} {f : Nat → Byte} {missing : List (BitVec 7)}

theorem Reassembling.in_sequence (h : Reassembling s₀ f missing s) (hne : missing ≠ []) : s.st = .sequence :=
  h.st.trans (if_neg hne)

/-- The window, EVT and the step output say nothing of what is missing. -/
theorem Reassembling.of_window (h : Reassembling s₀ f missing s) (w : Vector Len 6) (n : BitVec 3) (e : Evt)
    (o : Option Credential) : Reassembling s₀ f missing { s with seqw := w, seqCnt := n, evt := e, out := o } :=
  ⟨h.st, h.delta, h.totalLen, h.pwLen, h.seqQ, h.seqR, h.wf, h.nodup, h.inside, h.bitmap, h.written⟩

/-- A length whose window is not full, or fails a check, delivers nothing. -/
theorem Reassembling.exec_kept (h : Reassembling s₀ f missing s) (hne : missing ≠ []) {v : Len} {p : Pushed 6}
    (hpush : push s.seqw s.seqCnt v = p)
    (hno : p.full = true → ∀ g, checkFragment ((s.withSeqw p).withOut none) ≠ .ok g) :
    ∃ t, exec (.observe (s₀.delta + v)) s = .next t ∧ Reassembling s₀ f missing t ∧ t.seqw = p.window ∧
      t.seqCnt = p.count := by
  have hst := h.in_sequence hne
  have hadj : push s.seqw s.seqCnt (adjusted (s₀.delta + v) s.delta) = p := by rw [h.delta, adjusted_add, hpush]
  obtain ⟨t, ht, hobserved⟩ := exec_observe_observed (s₀.delta + v) s
  refine ⟨t, ht, ?_⟩
  cases hobserved with
  | sequenceKept p' e _ hpush' =>
    obtain rfl : p' = p := hpush'.trans hadj
    exact ⟨h.of_window .., rfl, rfl⟩
  | sequenceAccept p' g m b _ hpush' hfull hcheck =>
    obtain rfl : p' = p := hpush'.trans hadj
    exact absurd hcheck (hno hfull g)
  | sequenceComplete p' g m c _ hpush' hfull hcheck =>
    obtain rfl : p' = p := hpush'.trans hadj
    exact absurd hcheck (hno hfull g)
  | leadKept p e hother | leadAdvance p hother | magicKept p e hother | magicAdvance p hother | prefixKept p e hother
  | prefixAdvance p hother | done hother => exact not_of_st hst hother

/-- BITMAP is zero exactly where no bit is wanted. -/
theorem eq_zero_iff_of_getLsbD_iff {b : BitVec 64} {js : List Nat} (h : ∀ j, b.getLsbD j = true ↔ j ∈ js) :
    b = 0 ↔ js = [] := by
  refine ⟨fun hzero => List.eq_nil_iff_forall_not_mem.2 fun j hj => ?_, fun hnil => ?_⟩
  · have hbit := (h j).2 hj
    rw [hzero] at hbit
    exact absurd (BitVec.getLsbD_zero.symm.trans hbit) nofun
  · refine BitVec.eq_of_getLsbD_eq fun j _ => ?_
    rw [show (0 : BitVec 64).getLsbD j = false from BitVec.getLsbD_zero, Bool.eq_false_iff, ne_eq, h j, hnil]
    exact List.not_mem_nil

/-- The size of a fragment's bytes, and how far they reach (R172). -/
theorem fragmentOf_length (f : Nat → Byte) (total idx : Nat) :
    (fragmentOf f total idx).length = fragmentSize ((total + 3) / 4) (total % 4) idx := by
  rw [fragmentOf, List.length_map, List.length_range]

theorem fragmentSize_pos_le {q r idx : Nat} (hr : r < 4) : 1 ≤ fragmentSize q r idx ∧ fragmentSize q r idx ≤ 4 := by
  unfold fragmentSize
  split <;> omega

/-- Every byte below TOTAL_LEN of a fragment's four is one of its bytes. -/
theorem lt_fragmentSize {total idx a : Nat} (ha : a < total) (hidx : a / 4 = idx) :
    a - 4 * idx < fragmentSize ((total + 3) / 4) (total % 4) idx := by
  unfold fragmentSize
  split <;> omega

/-- What a delivered fragment leaves in the payload and in BITMAP. -/
theorem Reassembling.deliver {i : BitVec 7} {m : Memory} (h : Reassembling s₀ f (i :: missing) s)
    (hwrite : memWriteBytes s.payload (4 * i.toNat) (fragmentOf f s₀.totalLen.toNat i.toNat) = .ok m) :
    m.wf = true ∧
    (∀ j, (clearBitmapBit s.bitmap i).getLsbD j = true ↔ j ∈ missing.map BitVec.toNat) ∧
    ∀ a, a < s₀.totalLen.toNat → a / 4 ∉ missing.map BitVec.toNat → m.peek a = f a := by
  have hnodup := h.nodup
  rw [List.map_cons, List.nodup_cons] at hnodup
  obtain ⟨hnew, -⟩ := hnodup
  refine ⟨memWriteBytes_wf hwrite h.wf, fun j => ?_, fun a ha hmissing => ?_⟩
  · rw [clearBitmapBit_getLsbD, Bool.and_eq_true, h.bitmap, decide_eq_true_eq, List.map_cons, List.mem_cons]
    constructor
    · rintro ⟨rfl | hj, hne⟩
      · exact absurd rfl hne
      · exact hj
    · exact fun hj => ⟨.inr hj, fun heq => hnew (heq ▸ hj)⟩
  · by_cases hown : a / 4 = i.toNat
    · have hk := lt_fragmentSize ha hown
      rw [← fragmentOf_length f] at hk
      have hpeek := peek_memWriteBytes_of_inside h.wf hwrite hk
      rw [show 4 * i.toNat + (a - 4 * i.toNat) = a by omega] at hpeek
      rw [hpeek]
      simp only [fragmentOf, List.getElem_map, List.getElem_range]
      congr 1
      omega
    · have hfour : (fragmentOf f s₀.totalLen.toNat i.toNat).length ≤ 4 := by
        rw [fragmentOf_length]
        exact (fragmentSize_pos_le (Nat.mod_lt _ (by decide))).2
      rw [peek_memWriteBytes_of_outside h.wf hwrite (by omega)]
      refine h.written a ha fun hmem => ?_
      rw [List.map_cons, List.mem_cons] at hmem
      exact hmem.elim hown hmissing

/-- A length whose window holds a missing fragment delivers it. -/
theorem Reassembling.exec_delivers {i : BitVec 7} (h : Reassembling s₀ f (i :: missing) s) {v : Len} {p : Pushed 6}
    (hpush : push s.seqw s.seqCnt v = p) (hfull : p.full = true)
    (hcheck : checkFragment ((s.withSeqw p).withOut none) = .ok ⟨i, fragmentOf f s₀.totalLen.toNat i.toNat⟩) :
    ∃ t, exec (.observe (s₀.delta + v)) s = .next t ∧ Reassembling s₀ f missing t ∧ t.seqw = p.window ∧
      t.seqCnt = p.count := by
  have hst := h.in_sequence (List.cons_ne_nil i missing)
  have hadj : push s.seqw s.seqCnt (adjusted (s₀.delta + v) s.delta) = p := by rw [h.delta, adjusted_add, hpush]
  have hinside : ∀ j ∈ missing, j.toNat < (s₀.totalLen.toNat + 3) / 4 :=
    fun j hj => h.inside j (List.mem_cons_of_mem i hj)
  have hnodup := (List.nodup_cons.1 h.nodup).2
  obtain ⟨t, ht, hobserved⟩ := exec_observe_observed (s₀.delta + v) s
  refine ⟨t, ht, ?_⟩
  cases hobserved with
  | sequenceKept p' e _ hpush' hkept =>
    obtain rfl : p' = p := hpush'.trans hadj
    obtain ⟨hroom, -⟩ | ⟨-, he⟩ := hkept
    · exact absurd (hroom.symm.trans hfull) nofun
    · exact absurd (he.symm.trans hcheck) nofun
  | sequenceAccept p' g m b _ hpush' _ hcheck' hwrite hclear hmore =>
    obtain rfl : p' = p := hpush'.trans hadj
    cases hcheck.symm.trans hcheck'
    obtain ⟨hwf, hbits, hwritten⟩ := h.deliver hwrite
    subst hclear
    have hne : missing ≠ [] := fun hnil => hmore ((eq_zero_iff_of_getLsbD_iff hbits).2 (by rw [hnil]; rfl))
    exact ⟨⟨hst.trans (if_neg hne).symm, h.delta, h.totalLen, h.pwLen, h.seqQ, h.seqR, hwf, hnodup, hinside, hbits,
      hwritten⟩, rfl, rfl⟩
  | sequenceComplete p' g m c _ hpush' _ hcheck' hwrite hclear =>
    obtain rfl : p' = p := hpush'.trans hadj
    cases hcheck.symm.trans hcheck'
    obtain ⟨hwf, hbits, hwritten⟩ := h.deliver hwrite
    have hnil : missing = [] := List.map_eq_nil_iff.1 ((eq_zero_iff_of_getLsbD_iff hbits).1 hclear)
    rw [show clearBitmapBit s.bitmap i = 0 from hclear] at hbits
    exact ⟨⟨(if_pos hnil).symm, h.delta, h.totalLen, h.pwLen, h.seqQ, h.seqR, hwf, hnodup, hinside, hbits,
      hwritten⟩, rfl, rfl⟩
  | leadKept p e hother | leadAdvance p hother | magicKept p e hother | magicAdvance p hother | prefixKept p e hother
  | prefixAdvance p hother | done hother => exact not_of_st hst hother

/-- With nothing missing, further lengths are ignored (R202). -/
theorem Reassembling.observeAll_done (h : Reassembling s₀ f [] s) (lens : List Len) :
    ∃ t, observeAll lens s = .next t ∧ Reassembling s₀ f [] t := by
  induction lens generalizing s with
  | nil => exact ⟨s, rfl, h⟩
  | cons len lens ih =>
    obtain ⟨t, ht, hobserved⟩ := exec_observe_observed len s
    rw [observeAll_cons ht]
    have hkept := hobserved.done_frame (h.st.trans (if_pos rfl))
    exact ih (hkept ▸ h.of_window s.seqw s.seqCnt .ignored none)

end

end Sys2Proof.Machine

/-! The stream of a credential's fragments through the sequence window, and the end-to-end decode. -/

namespace Sys2Proof.Machine

/-! ### The stream of fragments through the window (R170, R178) -/

/-- The window holds the first five slots of the stream zs, so that the next slot completes a window. -/
def Awaits (s : State) (zs : List Len) : Prop := ∃ vs, Filled s.seqw s.seqCnt vs ∧ vs.rtake 5 = zs.take 5

/-- The lengths of a stream that are still to come at a window that holds its first five slots. -/
def lengthsToCome (d : Len) (zs : List Len) : List Len := (zs.drop 5).map (d + ·)

/-- The slots of the missing fragments, in the order given. -/
def slotStream (f : Nat → Byte) (total : Nat) (missing : List (BitVec 7)) : List Len :=
  missing.flatMap fun i =>
    crcSlot i (fragmentOf f total i.toNat) :: indexSlot i :: (fragmentOf f total i.toNat).map dataSlot

section
variable {s t : State} {zs : List Len} {w0 w1 w2 w3 w4 w5 : Len}

theorem push_of_awaits (h : Awaits s (w0 :: w1 :: w2 :: w3 :: w4 :: w5 :: zs)) :
    push s.seqw s.seqCnt w5 = ⟨#v[w0, w1, w2, w3, w4, w5], 6, true⟩ := by
  obtain ⟨vs, hvs, hfive⟩ := h
  have hpushed := hvs.push (by decide) w5
  rw [List.rtake_concat_succ, hfive] at hpushed
  obtain ⟨hw, hc⟩ := hpushed.eq_six
  have hfull := push_full s.seqw s.seqCnt w5
  rw [hc] at hfull
  calc push s.seqw s.seqCnt w5
      = ⟨(push s.seqw s.seqCnt w5).window, (push s.seqw s.seqCnt w5).count, (push s.seqw s.seqCnt w5).full⟩ := rfl
    _ = ⟨#v[w0, w1, w2, w3, w4, w5], 6, true⟩ := by rw [hw, hc, hfull]; rfl

theorem filled_six : Filled #v[w0, w1, w2, w3, w4, w5] 6 [w0, w1, w2, w3, w4, w5] :=
  ⟨rfl, le_rfl, fun _ _ _ => rfl⟩

theorem awaits_of_window (hw : t.seqw = #v[w0, w1, w2, w3, w4, w5]) (hc : t.seqCnt = 6) :
    Awaits t (w1 :: w2 :: w3 :: w4 :: w5 :: zs) :=
  ⟨[w0, w1, w2, w3, w4, w5], hw ▸ hc ▸ filled_six, rfl⟩

/-- A stream of two slots and four more, taken apart. -/
theorem exists_four_of_length (h : 4 ≤ zs.length) : ∃ w2 w3 w4 w5 rest, zs = w2 :: w3 :: w4 :: w5 :: rest := by
  match zs, h with
  | w2 :: w3 :: w4 :: w5 :: rest, _ => exact ⟨w2, w3, w4, w5, rest, rfl⟩

end

section
variable {s₀ s : State} {f : Nat → Byte} {missing : List (BitVec 7)}

/-- Where the first two slots are no header, the stream goes on by one slot. -/
theorem Reassembling.skip_slot (h : Reassembling s₀ f missing s) (hne : missing ≠ []) {w0 w1 : Len} {zs : List Len}
    (hlen : 4 ≤ zs.length) (haw : Awaits s (w0 :: w1 :: zs))
    (hnot : ¬(w0 &&& 0x0180#16 = 0x0080#16 ∧ w1 &&& 0x0180#16 = 0x0080#16)) :
    ∃ t, observeAll (lengthsToCome s₀.delta (w0 :: w1 :: zs)) s = observeAll (lengthsToCome s₀.delta (w1 :: zs)) t ∧
      Reassembling s₀ f missing t ∧ Awaits t (w1 :: zs) := by
  obtain ⟨w2, w3, w4, w5, rest, rfl⟩ := exists_four_of_length hlen
  have hno : ∀ g, checkFragment ((s.withSeqw ⟨#v[w0, w1, w2, w3, w4, w5], 6, true⟩).withOut none) ≠ .ok g := by
    intro g hcheck
    obtain ⟨-, hheader, -⟩ := checkFragment_ok hcheck
    exact hnot (seqHeaderOk_iff.1 hheader)
  obtain ⟨t, ht, hr, hw, hc⟩ := h.exec_kept hne (push_of_awaits haw) fun _ => hno
  exact ⟨t, observeAll_cons ht, hr, awaits_of_window hw hc⟩

/-- A fragment's data slots start no fragment. -/
theorem Reassembling.skip_data (h : Reassembling s₀ f missing s) (hne : missing ≠ []) (bytes : List Byte)
    {zs : List Len} (hlen : 5 ≤ zs.length) (haw : Awaits s (bytes.map dataSlot ++ zs)) :
    ∃ t, observeAll (lengthsToCome s₀.delta (bytes.map dataSlot ++ zs)) s = observeAll (lengthsToCome s₀.delta zs) t ∧
      Reassembling s₀ f missing t ∧ Awaits t zs := by
  induction bytes generalizing s with
  | nil => exact ⟨s, rfl, h, haw⟩
  | cons b bytes ih =>
    have hfive : 5 ≤ (bytes.map dataSlot ++ zs).length := by
      rw [List.length_append]
      omega
    obtain ⟨x, xs, hxs⟩ := List.exists_cons_of_length_pos (Nat.lt_of_lt_of_le (by decide) hfive)
    have hlong : 4 ≤ xs.length := by
      rw [hxs, List.length_cons] at hfive
      omega
    rw [List.map_cons, List.cons_append, hxs] at haw ⊢
    obtain ⟨t, ht, hr, haw'⟩ := h.skip_slot hne hlong haw fun hheader => dataSlot_not_header b hheader.1
    rw [ht, ← hxs]
    exact ih hr (hxs ▸ haw')

/-- A fragment at the head of the stream is delivered by the length that brings its first slot to the window's. -/
theorem Reassembling.deliver_head {i : BitVec 7} (h : Reassembling s₀ f (i :: missing) s) {zs : List Len}
    (hlen : 3 ≤ zs.length)
    (haw : Awaits s (crcSlot i (fragmentOf f s₀.totalLen.toNat i.toNat) :: indexSlot i ::
      ((fragmentOf f s₀.totalLen.toNat i.toNat).map dataSlot ++ zs))) :
    ∃ t, observeAll (lengthsToCome s₀.delta (crcSlot i (fragmentOf f s₀.totalLen.toNat i.toNat) :: indexSlot i ::
          ((fragmentOf f s₀.totalLen.toNat i.toNat).map dataSlot ++ zs))) s =
        observeAll (lengthsToCome s₀.delta (indexSlot i ::
          ((fragmentOf f s₀.totalLen.toNat i.toNat).map dataSlot ++ zs))) t ∧
      Reassembling s₀ f missing t ∧
      Awaits t (indexSlot i :: ((fragmentOf f s₀.totalLen.toNat i.toNat).map dataSlot ++ zs)) := by
  have hsize := fragmentOf_length f s₀.totalLen.toNat i.toNat
  obtain ⟨hpos, hfour⟩ := fragmentSize_pos_le (q := (s₀.totalLen.toNat + 3) / 4) (idx := i.toNat)
    (Nat.mod_lt s₀.totalLen.toNat (show 0 < 4 by decide))
  rw [← hsize] at hpos hfour
  generalize hbytes : fragmentOf f s₀.totalLen.toNat i.toNat = bytes at *
  obtain ⟨w2, w3, w4, w5, rest, hrest⟩ := exists_four_of_length (zs := bytes.map dataSlot ++ zs)
    (by simp only [List.length_append, List.length_map]; omega)
  have hdata : [w2, w3, w4, w5].take bytes.length = bytes.map dataSlot := by
    have hprefix := congrArg (List.take bytes.length) hrest
    rw [List.take_left' (by simp)] at hprefix
    rw [hprefix]
    exact (List.take_append_of_le_length (l₁ := [w2, w3, w4, w5]) hfour).symm
  rw [hrest] at haw ⊢
  have hbit : bitmapBit s.bitmap i = true := (h.bitmap i.toNat).2 List.mem_cons_self
  have hcheck : checkFragment ((s.withSeqw ⟨#v[crcSlot i bytes, indexSlot i, w2, w3, w4, w5], 6, true⟩).withOut none) =
      .ok ⟨i, bytes⟩ :=
    checkFragment_of_slots rfl (by simpa [h.seqQ, h.seqR] using hsize) hdata
      (by simpa [h.seqQ] using h.inside i List.mem_cons_self) hbit
  obtain ⟨t, ht, hr, hw, hc⟩ := h.exec_delivers (push_of_awaits haw) rfl (hbytes ▸ hcheck)
  exact ⟨t, observeAll_cons ht, hr, awaits_of_window hw hc⟩

theorem fragmentOf_ne_nil (f : Nat → Byte) (total idx : Nat) : fragmentOf f total idx ≠ [] := by
  refine List.ne_nil_of_length_pos ?_
  rw [fragmentOf_length]
  exact (fragmentSize_pos_le (Nat.mod_lt total (by decide))).1

theorem length_slotStream_ge {total : Nat} (hne : missing ≠ []) : 3 ≤ (slotStream f total missing).length := by
  obtain ⟨i, rest, rfl⟩ := List.exists_cons_of_ne_nil hne
  have hpos := List.length_pos_of_ne_nil (fragmentOf_ne_nil f total i.toNat)
  simp only [slotStream, List.flatMap_cons, List.length_append, List.length_cons, List.length_map]
  omega

/-- The missing fragments in any order, with three slots behind them, are all delivered. -/
theorem Reassembling.observeAll_stream (h : Reassembling s₀ f missing s) (hne : missing ≠ []) {tail : List Len}
    (htail : tail.length = 3) (haw : Awaits s (slotStream f s₀.totalLen.toNat missing ++ tail)) :
    ∃ t, observeAll (lengthsToCome s₀.delta (slotStream f s₀.totalLen.toNat missing ++ tail)) s = .next t ∧
      Reassembling s₀ f [] t := by
  induction missing generalizing s with
  | nil => exact absurd rfl hne
  | cons i missing ih =>
    have hhead : slotStream f s₀.totalLen.toNat (i :: missing) ++ tail =
        crcSlot i (fragmentOf f s₀.totalLen.toNat i.toNat) :: indexSlot i ::
          ((fragmentOf f s₀.totalLen.toNat i.toNat).map dataSlot ++
            (slotStream f s₀.totalLen.toNat missing ++ tail)) := by
      simp only [slotStream, List.flatMap_cons, List.cons_append, List.append_assoc]
    rw [hhead] at haw ⊢
    obtain ⟨t, ht, hr, haw'⟩ := h.deliver_head (by simp only [List.length_append]; omega) haw
    rw [ht]
    by_cases hlast : missing = []
    · subst hlast
      exact hr.observeAll_done _
    · have hlong : 5 ≤ (slotStream f s₀.totalLen.toNat missing ++ tail).length := by
        have := length_slotStream_ge (f := f) (total := s₀.totalLen.toNat) hlast
        rw [List.length_append]
        omega
      obtain ⟨b, bytes, hbytes⟩ := List.exists_cons_of_ne_nil (fragmentOf_ne_nil f s₀.totalLen.toNat i.toNat)
      have hfour : 4 ≤ (bytes.map dataSlot ++ (slotStream f s₀.totalLen.toNat missing ++ tail)).length := by
        rw [List.length_append]
        omega
      rw [hbytes] at haw' ⊢
      obtain ⟨u, hu, hr', hawu⟩ := hr.skip_slot hlast hfour haw' fun hheader => dataSlot_not_header b hheader.2
      obtain ⟨x, hx, hr'', hawx⟩ := hr'.skip_data hlast (b :: bytes) hlong hawu
      exact (hu.trans hx).symm ▸ ih hr'' hlast hawx

/-- Up to five lengths fill the window and deliver nothing (R170). -/
theorem Reassembling.observeAll_fill (h : Reassembling s₀ f missing s) (hne : missing ≠ []) {vs : List Len}
    (ws : List Len) (hvs : Filled s.seqw s.seqCnt vs) (hlen : vs.length + ws.length ≤ 5) :
    ∃ t, observeAll (ws.map (s₀.delta + ·)) s = .next t ∧ Reassembling s₀ f missing t ∧
      Filled t.seqw t.seqCnt (vs ++ ws) := by
  induction ws generalizing s vs with
  | nil => exact ⟨s, rfl, h, (List.append_nil vs).symm ▸ hvs⟩
  | cons w ws ih =>
    rw [List.length_cons] at hlen
    have hpushed := hvs.push (by decide) w
    have hall : (vs ++ [w]).rtake 6 = vs ++ [w] :=
      rtake_eq_self (by rw [List.length_append, List.length_singleton]; omega)
    have hroom : (push s.seqw s.seqCnt w).full ≠ true := by
      rw [push_full, hpushed.count, hall, List.length_append, List.length_singleton, ne_eq, decide_eq_true_eq]
      change ¬vs.length + 1 = 6
      omega
    obtain ⟨t, ht, hr, hw, hc⟩ := h.exec_kept hne rfl fun hfull => absurd hfull hroom
    rw [hall, ← hw, ← hc] at hpushed
    obtain ⟨u, hu, hr', hfilled⟩ := ih hr hpushed (by simp only [List.length_append, List.length_singleton]; omega)
    exact ⟨u, (observeAll_cons ht).trans hu, hr', by simpa using hfilled⟩

/-- Any length is an adjusted length with the offset put back (R140). -/
theorem map_add_adjusted (d : Len) (lens : List Len) : (lens.map (adjusted · d)).map (d + ·) = lens := by
  rw [List.map_map]
  refine (List.map_congr_left fun len _ => ?_).trans (List.map_id lens)
  rw [Function.comp_apply, adjusted, BitVec.add_comm, BitVec.sub_add_cancel, id]

/-- From an empty window, the missing fragments in any order with three lengths behind them are all delivered. -/
theorem Reassembling.observeAll_fragments (h : Reassembling s₀ f missing s) (hne : missing ≠ []) (hcnt : s.seqCnt = 0)
    {tail : List Len} (htail : tail.length = 3) :
    ∃ t, observeAll ((missing.flatMap fun i =>
        fragmentLengths i (fragmentOf f s₀.totalLen.toNat i.toNat) s₀.delta) ++ tail) s = .next t ∧
      Reassembling s₀ f [] t := by
  have hstream :
      (missing.flatMap fun i => fragmentLengths i (fragmentOf f s₀.totalLen.toNat i.toNat) s₀.delta) ++ tail =
        (slotStream f s₀.totalLen.toNat missing ++ tail.map (adjusted · s₀.delta)).map (s₀.delta + ·) := by
    rw [List.map_append, map_add_adjusted, slotStream, List.map_flatMap]
    simp only [fragmentLengths_eq]
  generalize hslots : tail.map (adjusted · s₀.delta) = slots at hstream
  have hlen : slots.length = 3 := by rw [← hslots, List.length_map, htail]
  have hlong : 5 ≤ (slotStream f s₀.totalLen.toNat missing ++ slots).length := by
    have := length_slotStream_ge (f := f) (total := s₀.totalLen.toNat) hne
    rw [List.length_append]
    omega
  obtain ⟨t, ht, hr, hfilled⟩ := h.observeAll_fill hne ((slotStream f s₀.totalLen.toNat missing ++ slots).take 5)
    (filled_nil (w := s.seqw) hcnt) (by simp)
  have haw : Awaits t (slotStream f s₀.totalLen.toNat missing ++ slots) := ⟨_, hfilled, by
    rw [List.nil_append, List.rtake, List.length_take_of_le hlong, Nat.sub_self, List.drop_zero]⟩
  obtain ⟨u, hu, hdone⟩ := hr.observeAll_stream hne hlen haw
  refine ⟨u, ?_, hdone⟩
  rw [hstream, ← List.take_append_drop 5 (slotStream f s₀.totalLen.toNat missing ++ slots), List.map_append,
    observeAll_append ht]
  exact hu

end

/-! ### The statements -/

/-- With the whole BITMAP set and the payload still unwritten, every fragment is missing. -/
theorem reassembling_of_fullBitmap {s : State} {f : Nat → Byte} {order : List (BitVec 7)} (hst : s.st = .sequence)
    (hq : s.seqQ.toNat = (s.totalLen.toNat + 3) / 4) (hr : s.seqR.toNat = s.totalLen.toNat % 4)
    (hwf : s.payload.wf = true) (hne : order ≠ []) (hbitmap : s.bitmap.toNat = 2 ^ s.seqQ.toNat - 1)
    (hperm : (order.map BitVec.toNat).Perm (List.range s.seqQ.toNat)) : Reassembling s f order s := by
  have hmem : ∀ j, j ∈ order.map BitVec.toNat ↔ j < s.seqQ.toNat := fun j => hperm.mem_iff.trans List.mem_range
  refine ⟨hst.trans (if_neg hne).symm, rfl, rfl, rfl, hq, hr, hwf, hperm.symm.nodup List.nodup_range,
    fun i hi => hq ▸ (hmem _).1 (List.mem_map_of_mem hi), fun j => ?_, fun a ha hmissing => ?_⟩
  · rw [hmem, BitVec.getLsbD, hbitmap, Nat.testBit_two_pow_sub_one, decide_eq_true_eq]
  · rw [hmem] at hmissing
    omega

theorem order_ne_nil {order : List (BitVec 7)} {total q : Nat} (htotal : 1 ≤ total) (hq : q = (total + 3) / 4)
    (hperm : (order.map BitVec.toNat).Perm (List.range q)) : order ≠ [] := by
  rintro rfl
  have hlen := hperm.length_eq
  rw [List.map_nil, List.length_nil, List.length_range] at hlen
  omega

/-- Settles O31: the window holds each fragment once, with its first slot at the window's, and holds no other. -/
theorem fragmentsInAnyOrderReassemble : Obligations.FragmentsInAnyOrderReassemble := by
  intro s f order tail hc hwf hst hcnt htotal hbitmap hperm htail
  obtain ⟨hq, hr⟩ := hc.lengths (.inr (.inl hst))
  have hne := order_ne_nil htotal hq hperm
  obtain ⟨t, ht, hdone⟩ := (reassembling_of_fullBitmap (f := f) hst hq hr hwf hne hbitmap hperm).observeAll_fragments
    hne hcnt htail
  exact ⟨t, ht, hdone.st, (eq_zero_iff_of_getLsbD_iff hdone.bitmap).2 rfl,
    fun a ha => hdone.written a ha List.not_mem_nil⟩

/-! ### The whole length stream of a credential (95_test_vectors.md section 0) -/

/-- The lengths of a leading code, from reset (R88, R121). -/
theorem observeAll_leadLengths_reset {d : Nat} (hd : d ≤ 65531) :
    observeAll (leadLengths (BitVec.ofNat 16 d)) State.reset = .next (afterLeadRun d) := by
  obtain ⟨t₁, t₂, t₃, h₁, -, h₂, -, h₃, -, h₄⟩ := exec_lead_run hd
  rw [leadLengths_ofNat, observeAll_cons h₁, observeAll_cons h₂, observeAll_cons h₃, observeAll_cons h₄]
  rfl

/-- A length that a header can carry is read back as it is (R143). -/
theorem headerValue_ofNat_toNat {bands : Vector Len 4} (hb : HeaderBands bands) {n : Nat} (hn : n ≤ 255)
    (hquirk : n / 16 ≠ 8) (c : Byte) : (headerValue (headerWindow bands (BitVec.ofNat 8 n) c)).toNat = n := by
  have hnum : (BitVec.ofNat 8 n).toNat = n := Nat.mod_eq_of_lt (by omega)
  rw [headerValue_headerWindow_toNat hb, hnum, if_neg hquirk]

/-- The state in which the fragments of a credential are expected: after the leading code and the two headers. -/
def afterHeaders (d total pw : Nat) (c₁ c₂ : Byte) : State :=
  afterPrefixWindow (afterMagicWindow (afterLeadRun d) (headerWindow Config.magicBands (BitVec.ofNat 8 total) c₁))
    (headerWindow Config.prefixBands (BitVec.ofNat 8 pw) c₂)

theorem observeAll_headers_reset {d : Nat} (hd : d ≤ 65531) (total pw : Nat) (c₁ c₂ : Byte) :
    observeAll (leadLengths (BitVec.ofNat 16 d) ++
      headerLengths Config.magicBands (BitVec.ofNat 8 total) c₁ (BitVec.ofNat 16 d) ++
      headerLengths Config.prefixBands (BitVec.ofNat 8 pw) c₂ (BitVec.ofNat 16 d)) State.reset =
      .next (afterHeaders d total pw c₁ c₂) := by
  rw [List.append_assoc, observeAll_append (observeAll_leadLengths_reset hd)]
  have hmagic : observeAll (headerLengths Config.magicBands (BitVec.ofNat 8 total) c₁ (BitVec.ofNat 16 d))
      (afterLeadRun d) = .next (afterMagicWindow (afterLeadRun d) _) :=
    observeAll_magicHeader (s := afterLeadRun d) rfl (Nat.zero_le 4) (BitVec.ofNat 8 total) c₁
  rw [observeAll_append hmagic]
  exact observeAll_prefixHeader (s := afterMagicWindow (afterLeadRun d) _) rfl (Nat.zero_le 4) (BitVec.ofNat 8 pw) c₂

section
variable {d total pw : Nat} (c₁ c₂ : Byte)

theorem afterHeaders_totalLen (hlen : total ≤ 255) (hquirk : total / 16 ≠ 8) :
    (afterHeaders d total pw c₁ c₂).totalLen.toNat = total :=
  headerValue_ofNat_toNat headerBands_magic hlen hquirk c₁

theorem afterHeaders_pwLen (hlen : pw ≤ 255) (hquirk : pw / 16 ≠ 8) :
    (afterHeaders d total pw c₁ c₂).pwLen.toNat = pw :=
  headerValue_ofNat_toNat headerBands_prefix hlen hquirk c₂

/-- After the headers every fragment is missing. -/
theorem reassembling_afterHeaders (f : Nat → Byte) {order : List (BitVec 7)} (hpos : 1 ≤ total) (hlen : total ≤ 255)
    (hquirk : total / 16 ≠ 8) (hperm : (order.map BitVec.toNat).Perm (List.range ((total + 3) / 4))) :
    Reassembling (afterHeaders d total pw c₁ c₂) f order (afterHeaders d total pw c₁ c₂) := by
  have hq : (afterHeaders d total pw c₁ c₂).seqQ.toNat = ((afterHeaders d total pw c₁ c₂).totalLen.toNat + 3) / 4 :=
    fragmentCount_toNat _
  have hperm' : (order.map BitVec.toNat).Perm (List.range (afterHeaders d total pw c₁ c₂).seqQ.toNat) := by
    rwa [hq, afterHeaders_totalLen c₁ c₂ hlen hquirk]
  exact reassembling_of_fullBitmap rfl hq (lastFragmentBytes_toNat _) rfl (order_ne_nil hpos rfl hperm)
    (fullBitmap_fragmentCount_toNat _) hperm'

end

/-- A payload that reads password, nonce and ssid gives the credential of these parts (R182). -/
theorem credential_of_payload {t : State} {password ssid : List Byte} {nonce : Byte}
    (hpw : t.pwLen.toNat = password.length) (htotal : t.totalLen.toNat = (password ++ nonce :: ssid).length)
    (hread : ∀ a, a < t.totalLen.toNat → t.payload.peek a = (password ++ nonce :: ssid).getD a 0) :
    credential t = .ok { password := password, nonce := nonce, ssid := ssid } := by
  rw [List.length_append, List.length_cons] at htotal
  have hssid : (if t.pwLen.toNat + 1 < t.totalLen.toNat then t.totalLen.toNat - t.pwLen.toNat - 1 else 0) =
      ssid.length := by
    split <;> omega
  rw [credentialViewSplitsThePayload t, hssid, hpw]
  have hpassword : (List.range password.length).map t.payload.peek = password := by
    refine List.ext_getElem (by simp) fun k hk hk' => ?_
    rw [List.getElem_map, List.getElem_range, hread k (by omega), List.getD_append _ _ _ _ hk', List.getD_eq_getElem]
  have hnonce : t.payload.peek password.length = nonce := by
    rw [hread _ (by omega), List.getD_append_right _ _ _ _ le_rfl, Nat.sub_self]
    rfl
  have htail : (List.range ssid.length).map (fun k => t.payload.peek (password.length + 1 + k)) = ssid := by
    refine List.ext_getElem (by simp) fun k hk hk' => ?_
    rw [List.getElem_map, List.getElem_range, hread _ (by omega), List.getD_append_right _ _ _ _ (by omega),
      show password.length + 1 + k - password.length = k + 1 by omega, List.getD_cons_succ, List.getD_eq_getElem]
  rw [hpassword, hnonce, htail]

/-- Settles O32: the leading code and the two headers lead to the state that waits for every fragment, the fragments
reassemble the payload, and the payload is split where it was joined. -/
theorem everyCarriableCredentialIsDecoded : Obligations.EveryCarriableCredentialIsDecoded := by
  intro d password ssid nonce c₁ c₂ order tail payload total delta hd hlen hquirk hpwquirk htail hperm
  have hparts : total = password.length + (ssid.length + 1) := List.length_append
  have htotal := afterHeaders_totalLen (d := d) (pw := password.length) c₁ c₂ hlen hquirk
  have hstart := reassembling_afterHeaders (d := d) (pw := password.length) c₁ c₂ (fun a => payload.getD a 0) (by omega)
    hlen hquirk hperm
  obtain ⟨t, ht, hdone⟩ := hstart.observeAll_fragments (order_ne_nil (by omega) rfl hperm) rfl htail
  rw [htotal] at ht
  refine ⟨t, ?_, hdone.st, credential_of_payload ?_ ?_ fun a ha => ?_⟩
  · rw [List.append_assoc, observeAll_append (observeAll_headers_reset hd total password.length c₁ c₂)]
    exact ht
  · rw [hdone.pwLen, afterHeaders_pwLen c₁ c₂ (by omega) hpwquirk]
  · rw [hdone.totalLen, htotal]
  · exact hdone.written a (hdone.totalLen ▸ ha) List.not_mem_nil

end Sys2Proof.Machine
